-- ==== Sys2Proof/Word.lean ====
section
/-!
DEFINITION. The words RXC moves: bytes, 32-bit words, the 13-word raw message of the receive window
(30_encoding.md R93) and the 13-byte Frame record (R92).
-/

namespace Sys2Proof

/-- Eight bits: one byte of a record, or the significant part of a register word (10_state.md section 2). -/
abbrev Byte := BitVec 8

/-- A 32-bit quantity: an identifier, a counter, a whole register word. -/
abbrev Word32 := BitVec 32

/-- A raw message, `w[0] .. w[12]`, each word with its 8 significant bits (R93). -/
abbrev RawMsg := Vector Byte 13

/-- The Frame record (R92): the control byte, the identifier and the eight payload bytes. -/
structure Frame where
  control : Byte
  id : Word32
  payload : Vector Byte 8
  deriving DecidableEq, Repr, Inhabited

/-- The frame whose 104 bits are all zero. -/
def Frame.zero : Frame := ⟨0, 0, Vector.replicate 8 0⟩

end Sys2Proof
end

