-- ==== Sys2Proof/Config.lean ====
section
/-!
DEFINITION. The parameters of RXC (00_scope.md R5) as plain data, the well-formed configurations (R6),
and the free values the spec leaves open, each an opaque constant nothing can evaluate.
-/

namespace Sys2Proof

/-- One pair `(id, dflt)` of `PROFILE.entry` (R5), `dflt` of `RATE_W` bits. -/
structure ProfileEntry (rateW : Nat) where
  id : Word32
  dflt : BitVec rateW
  deriving DecidableEq, Repr, Inhabited

/-- `PROFILE.timing` (41_decoder.md R148); each field has the width of its register field (10_state.md R37). -/
structure BusTiming where
  brp : BitVec 6
  sjw : BitVec 2
  tseg1 : BitVec 4
  tseg2 : BitVec 3
  sam : Bool
  deriving DecidableEq, Repr, Inhabited

/-- An acceptance filter: `PROFILE.filter` (R149), and the contents of `MAC.ACF` (R38). -/
structure Filter where
  code : Word32
  mask : Word32
  single : Bool
  deriving DecidableEq, Repr, Inhabited

/-- The accept-all value: every mask bit "don't care", single mode, any code (R38). -/
def Filter.isAcceptAll (f : Filter) : Bool := f.mask == 0xFFFFFFFF && f.single

/-- The parameters of R5. `CNT_W` is the width of a counter's type; `SYNC_STAGES` is
`Config.syncStages`, which no rule reads. -/
structure Config where
  /-- `N`, the queue capacity in frames. -/
  n : Nat
  /-- `RATE_W`, the width of every `dflt`. -/
  rateW : Nat
  /-- `PROFILE.entry`, in table order; `T` is its length. -/
  profile : List (ProfileEntry rateW)
  timing : BusTiming
  filter : Filter
  /-- `RXFIFO_MSGS`. -/
  rxfifoMsgs : Nat
  /-- `MAC_RESET_FLUSH`. -/
  macResetFlush : Bool
  /-- `ACF_MATCH`, as the pairs it answers false for (log 6). Filters and messages are finitely many, so every
  total function is such a list. -/
  acfRejects : List (Filter × RawMsg)
  deriving DecidableEq, Repr, Inhabited

/-- `SYNC_STAGES` (R5): timing only, read by no rule. -/
def Config.syncStages : Nat := 2

/-- `PW`, the pointer width: `log2(N) + 1` (R5). -/
def Config.pw (c : Config) : Nat := Nat.log2 c.n + 1

/-- `T`, the number of watched identifiers (R5). -/
def Config.t (c : Config) : Nat := c.profile.length

/-- Each identifier is below the next one: the check DEC.NEW makes (R140). -/
def ascending : List Word32 → Bool
  | a :: b :: l => a < b && ascending (b :: l)
  | _ => true

/-- A well-formed configuration (R6): strictly ascending identifiers and `N` a power of two, at least 2. -/
def Config.wf (c : Config) : Bool :=
  ascending (c.profile.map (·.id)) && c.n == 2 ^ Nat.log2 c.n && decide (2 ≤ c.n)

/-- The ranges R5 and R40 give two more parameters: `RATE_W >= 1`, `1 <= RXFIFO_MSGS <= 255`. The statements
hold without them, so for more configurations than the spec's (log 21). -/
def Config.inRange (c : Config) : Bool :=
  decide (1 ≤ c.rateW) && decide (1 ≤ c.rxfifoMsgs) && decide (c.rxfifoMsgs ≤ 255)

/-- DESIGN CHOICE (log 5): the configuration `State.reset` is built with. `N = 8` and `RATE_W = 8` are R5's
reference and suggested values; the one watched pair is the source's own (95_test_vectors.md T7); 64
messages, the flush and the accept-all filter are the start state of 95's programs; no message is rejected
under any other filter. -/
def Config.reference : Config where
  n := 8
  rateW := 8
  profile := [⟨0x0A5, 3⟩]
  timing := ⟨0, 0, 0, 0, false⟩
  filter := ⟨0, 0xFFFFFFFF, true⟩
  rxfifoMsgs := 64
  macResetFlush := true
  acfRejects := []

/-- `ACF_MATCH(filter, msg)` (R5): true for every message under the accept-all filter, otherwise what the
parameter says (log 6). -/
def Config.acfMatch (c : Config) (f : Filter) (m : RawMsg) : Bool :=
  f.isAcceptAll || decide ((f, m) ∉ c.acfRejects)

/-! ### Free values

Each is applied to the counter `draws` of the state, so that two draws are not known to agree. -/

/-- The draw `RESET_ACK` where the environment's list names no answer (R5, U12; log 7). -/
opaque Config.freeAck : Nat → Bool

/-- The bits of `MAC.MODE` other than `RM` after a declined request (R201, R256; log 8). -/
opaque Config.freeMode : Nat → Byte

/-- The reserved bits of `MAC.MODE` on a read (R33, U4; log 31). -/
opaque Config.freeModeRead : Nat → Byte

/-- The receive window while the MAC's FIFO is empty (R39, U3; log 11). -/
opaque Config.freeWindow : Nat → RawMsg

/-- A read of the write-only `MAC.CMD` (R34, U4; log 12). -/
opaque Config.freeCmd : Nat → Byte

/-- A power-on byte register of the MAC: the draw and the register's index (R291, U10; log 9). -/
opaque Config.freeMacByte : Nat → Nat → Byte

/-- A power-on word of the MAC's acceptance filter: the draw, and 0 for code, 1 for mask (U10; log 9). -/
opaque Config.freeMacWord : Nat → Nat → Word32

/-- The MAC's FIFO at power-on (R291, U11; log 9); RESET keeps at most `RXFIFO_MSGS` of it. -/
opaque Config.freeRxq : Nat → List RawMsg

/-- A queue slot nothing has pushed into: the draw and the slot's index (R25, U9; log 10). -/
opaque Config.freeSlot : Nat → Nat → Frame

end Sys2Proof
end

