-- ==== Sys2Proof/Syntax.lean ====
section
/-!
DEFINITION. The operation set of RXC (30_encoding.md R109): one constructor per row of
spec/opcode_table.json, with the row's operands decoded.
-/

namespace Sys2Proof

/-- The counter a SNAPSHOT names by its 2-bit `sel` (R104): 0 irq, 1 err, 2 admitted, 3 forwarded. -/
inductive CounterSel where
  | irq | err | admitted | forwarded
  deriving DecidableEq, Repr

/-- The error-class bit a MAC.ERR step sets (60_exceptions.md R255): 2, 5, 6 or 7 of `MAC.ISR` (R35). -/
inductive ErrBit where
  | bitErr | errPassive | arbLost | busErr
  deriving DecidableEq, Repr

/-- The operations of RXC, in the order of spec/opcode_table.json. -/
inductive Instr where
  /-- `INSTALL`, R201. -/
  | install
  /-- `START`, R202. -/
  | start
  /-- `STOP`, R203. -/
  | stop
  /-- `UNINSTALL`, R204. -/
  | uninstall
  /-- `RECV`, R205. -/
  | recv
  /-- `DEPTH`, R177. -/
  | depth
  /-- `CAN_DECODE id`, R142. -/
  | canDecode (id : Word32)
  /-- `SNAPSHOT sel`, R206. -/
  | snapshot (sel : CounterSel)
  /-- `COMMAND len b`, R151; `len` is the length of the list. -/
  | command (b : List Byte)
  /-- `DENY_ALL`, R144. -/
  | denyAll
  /-- `ALLOW_ALL`, R145. -/
  | allowAll
  /-- `ALLOW_ID id`, R146. -/
  | allowId (id : Word32)
  /-- Select codes `0xC` to `0xF` (R105 d, R208): bits 3:2 are 11, `low` is bits 1:0. -/
  | hostopReserved (low : BitVec 2)
  /-- `CMD.DENY_ALL`, bytes `[00]`, R152. -/
  | cmdDenyAll
  /-- `CMD.ALLOW_ALL`, bytes `[01 hi lo]`, R153; the interval is `hi ++ lo` (R96). -/
  | cmdAllowAll (interval : BitVec 16)
  /-- `CMD.ALLOW_ID`, bytes `[02 hi lo b3 b2 b1 b0]`, R154. -/
  | cmdAllowId (interval : BitVec 16) (id : Word32)
  /-- `CMD.INVALID`, any other bytes, R155. -/
  | cmdInvalid (b : List Byte)
  /-- `DR.ENTRY.RX`, R243. -/
  | drEntryRx
  /-- `DR.ENTRY.ERR`, R243. -/
  | drEntryErr
  /-- `DR.ENTRY.NONE`, R243. -/
  | drEntryNone
  /-- `DR.COUNT`, R263. -/
  | drCount
  /-- `DR.MSG.RTR`, R245. -/
  | drMsgRtr
  /-- `DR.MSG.EXT`, R245. -/
  | drMsgExt
  /-- `DR.MSG.STD`, R245. -/
  | drMsgStd
  /-- `DR.EXIT`, R246. -/
  | drExit
  /-- `SWEEP.STEP`, R147. -/
  | sweepStep
  /-- `SHOULD_DECODE id`, R143: an internal function. -/
  | shouldDecode (id : Word32)
  /-- `CAPTURE.CLASS c`, R130: an internal function. -/
  | captureClass (c : Byte)
  /-- `TRY_PUSH f`, R173: an internal function. -/
  | tryPush (f : Frame)
  /-- `TRY_POP`, R174: an internal function. -/
  | tryPop
  /-- `SYNC_W`, R175. -/
  | syncW
  /-- `SYNC_R`, R176. -/
  | syncR
  /-- `MAC.RX m`, R254: an environment step. -/
  | macRx (m : RawMsg)
  /-- `MAC.ERR b`, R255: an environment step. -/
  | macErr (b : ErrBit)
  /-- `RESET`, R290: the power-on event. -/
  | reset
  deriving DecidableEq, Repr

end Sys2Proof
end

