-- ==== Sys2Proof/WellFormed.lean ====
section
/-!
DEFINITION. Which instructions are well formed. The operands of every constructor but one are typed so that
each value is legal; `CMD.INVALID` is by R95 only what the three legal commands do not match.
-/

namespace Sys2Proof

/-- The bytes are one of the three legal remote commands: opcode 0 with length 1, opcode 1 with length 3,
opcode 2 with length 7 (R95, R106). -/
def legalCommand (b : List Byte) : Bool :=
  match b with
  | [] => false
  | c :: _ =>
    (c == 0 && b.length == 1) || (c == 1 && b.length == 3) || (c == 2 && b.length == 7)

/-- The check on an instruction as a term: a `CMD.INVALID` carries bytes no legal command matches. -/
def Instr.wellFormed (i : Instr) : Bool :=
  match i with
  | .cmdInvalid b => !legalCommand b
  | .install | .start | .stop | .uninstall | .recv | .depth | .canDecode _ | .snapshot _ | .command _
  | .denyAll | .allowAll | .allowId _ | .hostopReserved _ | .cmdDenyAll | .cmdAllowAll _
  | .cmdAllowId _ _ | .drEntryRx | .drEntryErr | .drEntryNone | .drCount | .drMsgRtr | .drMsgExt
  | .drMsgStd | .drExit | .sweepStep | .shouldDecode _ | .captureClass _ | .tryPush _ | .tryPop
  | .syncW | .syncR | .macRx _ | .macErr _ | .reset => true

end Sys2Proof
end

