-- ==== Sys2Proof/Decode.lean ====
section
/-!
DEFINITION. The four bit patterns RXC decodes (30_encoding.md: HOSTOP R104, RCMD R95, ISR R97, RXCTRL R98),
each total on any bytes, the encoder beside them, and the word of the opcode table as the host asks for it.
The byte form of a host operation's operands is the model's (log 4); the select codes and the three other
formats are the spec's.
-/

namespace Sys2Proof

/-- The four decoded formats of 30_encoding.md's first table. -/
inductive Format where
  | hostop | rcmd | isr | rxctrl
  deriving DecidableEq, Repr

/-- Why bytes are no instruction. Only the model's byte forms can be wrong: every bit pattern the spec
itself decodes has an operation (R105). -/
inductive DecodeError where
  /-- No byte, or fewer operand bytes than the operation has. -/
  | truncated
  /-- More bytes than the operation has. -/
  | trailing
  /-- A bit outside the 4-bit select code or the 2-bit `sel` is set. -/
  | highBits
  deriving DecidableEq, Repr

/-- What a decoder answers: an instruction, or a rejection by name. -/
inductive Decoded where
  | ok (i : Instr)
  | reject (e : DecodeError)
  deriving DecidableEq, Repr

/-- The counter of a 2-bit `sel` (R104; every value is used, R105 e). -/
def counterOfSel (b : BitVec 2) : CounterSel :=
  if b = 0 then .irq else if b = 1 then .err else if b = 2 then .admitted else .forwarded

/-- The 2-bit `sel` of a counter. -/
def selOfCounter (c : CounterSel) : BitVec 2 :=
  match c with
  | .irq => 0
  | .err => 1
  | .admitted => 2
  | .forwarded => 3

/-- The `MAC.ISR` bit number of an error condition (R255, R35). -/
def ErrBit.bit (b : ErrBit) : Nat :=
  match b with
  | .bitErr => 2
  | .errPassive => 5
  | .arbLost => 6
  | .busErr => 7

/-- `(b3 << 24) | (b2 << 16) | (b1 << 8) | b0` (R96): four bytes as one 32-bit value. -/
def wordOfBytes (b3 b2 b1 b0 : Byte) : Word32 :=
  (b3.setWidth 32 <<< 24) ||| (b2.setWidth 32 <<< 16) ||| (b1.setWidth 32 <<< 8) ||| b0.setWidth 32

/-- `(hi << 8) | lo` (R96). -/
def halfOfBytes (hi lo : Byte) : BitVec 16 := (hi.setWidth 16 <<< 8) ||| lo.setWidth 16

/-! ### RCMD -/

/-- A remote command: the opcode and its one legal length, or CMD.INVALID (R95, R96, R106, R151). -/
def decodeRcmd (b : List Byte) : Instr :=
  match b with
  | [c] => if c = 0 then .cmdDenyAll else .cmdInvalid b
  | [c, hi, lo] => if c = 1 then .cmdAllowAll (halfOfBytes hi lo) else .cmdInvalid b
  | [c, hi, lo, b3, b2, b1, b0] =>
    if c = 2 then .cmdAllowId (halfOfBytes hi lo) (wordOfBytes b3 b2 b1 b0) else .cmdInvalid b
  | _ => .cmdInvalid b

/-! ### ISR and RXCTRL -/

/-- `ERRCLASS`, the four error-class bits of `MAC.ISR` (R35). -/
def errClass : Byte := 0xE4

/-- The branch the status value selects, tested in R97's order. -/
def decodeIsr (s : Byte) : Instr :=
  if s.getLsbD 0 then .drEntryRx else if s &&& errClass ≠ 0 then .drEntryErr else .drEntryNone

/-- The branch the control byte selects, tested in R98's order. -/
def decodeRxctrl (c : Byte) : Instr :=
  if c &&& 0x40 = 0x40 then .drMsgRtr else if c &&& 0xC0 = 0x80 then .drMsgExt else .drMsgStd

/-! ### HOSTOP -/

/-- An operation without operand bytes. -/
def noOperand (i : Instr) (operands : List Byte) : Decoded :=
  match operands with
  | [] => .ok i
  | _ :: _ => .reject .trailing

/-- An operation with a 32-bit identifier, its low byte first (log 4). -/
def idOperand (f : Word32 → Instr) (operands : List Byte) : Decoded :=
  match operands with
  | [b0, b1, b2, b3] => .ok (f (wordOfBytes b3 b2 b1 b0))
  | _ :: _ :: _ :: _ :: _ :: _ => .reject .trailing
  | _ => .reject .truncated

/-- SNAPSHOT's `sel`, in bits 1:0 of one byte (log 4). -/
def selOperand (operands : List Byte) : Decoded :=
  match operands with
  | [b] => if b &&& 0xFC = 0 then .ok (.snapshot (counterOfSel (b.setWidth 2))) else .reject .highBits
  | [] => .reject .truncated
  | _ :: _ :: _ => .reject .trailing

/-- The operation a select code names, with its operand bytes (R104; `0xC` to `0xF` reserved, R105 d). -/
def decodeSelect (op : BitVec 4) (operands : List Byte) : Decoded :=
  if op = 0x0 then noOperand .install operands
  else if op = 0x1 then noOperand .start operands
  else if op = 0x2 then noOperand .stop operands
  else if op = 0x3 then noOperand .uninstall operands
  else if op = 0x4 then noOperand .recv operands
  else if op = 0x5 then noOperand .depth operands
  else if op = 0x6 then idOperand .canDecode operands
  else if op = 0x7 then selOperand operands
  else if op = 0x8 then .ok (.command operands)
  else if op = 0x9 then noOperand .denyAll operands
  else if op = 0xA then noOperand .allowAll operands
  else if op = 0xB then idOperand .allowId operands
  else noOperand (.hostopReserved (op.setWidth 2)) operands

/-- The bytes of a host operation: the select code in bits 3:0 of the first, then the operand bytes. -/
def decodeHost (bytes : List Byte) : Decoded :=
  match bytes with
  | [] => .reject .truncated
  | b :: operands =>
    if b &&& 0xF0 = 0 then decodeSelect (b.setWidth 4) operands else .reject .highBits

/-! ### All formats -/

/-- A format whose pattern is one byte. -/
def oneByte (f : Byte → Instr) (bytes : List Byte) : Decoded :=
  match bytes with
  | [b] => .ok (f b)
  | [] => .reject .truncated
  | _ :: _ :: _ => .reject .trailing

/-- The decoder of each format, total on any bytes. -/
def decode (f : Format) (bytes : List Byte) : Decoded :=
  match f with
  | .hostop => decodeHost bytes
  | .rcmd => .ok (decodeRcmd bytes)
  | .isr => oneByte decodeIsr bytes
  | .rxctrl => oneByte decodeRxctrl bytes

/-! ### The encoder -/

/-- The four bytes of an identifier, low byte first (log 4). -/
def idBytesLow (id : Word32) : List Byte :=
  [id.extractLsb' 0 8, id.extractLsb' 8 8, id.extractLsb' 16 8, id.extractLsb' 24 8]

/-- The four bytes of an identifier, most significant first, as a remote command carries it (R96). -/
def idBytesHigh (id : Word32) : List Byte :=
  [id.extractLsb' 24 8, id.extractLsb' 16 8, id.extractLsb' 8 8, id.extractLsb' 0 8]

/-- The two bytes of an interval, `hi` then `lo` (R96). -/
def intervalBytes (v : BitVec 16) : List Byte := [v.extractLsb' 8 8, v.extractLsb' 0 8]

/-- The bytes of an instruction and the format they are read in, from the same tables. A step that has no
bit pattern (format STEP) has no encoding. Where the spec ignores bits of a pattern they are zero here, and
an error-class status is encoded by `BUS_ERR`. -/
def encode (i : Instr) : Option (Format × List Byte) :=
  match i with
  | .install => some (.hostop, [0x00])
  | .start => some (.hostop, [0x01])
  | .stop => some (.hostop, [0x02])
  | .uninstall => some (.hostop, [0x03])
  | .recv => some (.hostop, [0x04])
  | .depth => some (.hostop, [0x05])
  | .canDecode id => some (.hostop, 0x06 :: idBytesLow id)
  | .snapshot sel => some (.hostop, [0x07, (selOfCounter sel).setWidth 8])
  | .command b => some (.hostop, 0x08 :: b)
  | .denyAll => some (.hostop, [0x09])
  | .allowAll => some (.hostop, [0x0A])
  | .allowId id => some (.hostop, 0x0B :: idBytesLow id)
  | .hostopReserved low => some (.hostop, [0x0C ||| low.setWidth 8])
  | .cmdDenyAll => some (.rcmd, [0x00])
  | .cmdAllowAll interval => some (.rcmd, 0x01 :: intervalBytes interval)
  | .cmdAllowId interval id => some (.rcmd, 0x02 :: (intervalBytes interval ++ idBytesHigh id))
  | .cmdInvalid b => some (.rcmd, b)
  | .drEntryRx => some (.isr, [0x01])
  | .drEntryErr => some (.isr, [0x80])
  | .drEntryNone => some (.isr, [0x00])
  | .drMsgRtr => some (.rxctrl, [0x40])
  | .drMsgExt => some (.rxctrl, [0x80])
  | .drMsgStd => some (.rxctrl, [0x00])
  | .drCount | .drExit | .sweepStep | .shouldDecode _ | .captureClass _ | .tryPush _ | .tryPop
  | .syncW | .syncR | .macRx _ | .macErr _ | .reset => none

/-! ### The opcode table's words -/

/-- The bytes of a word numbered from bit 0 of the first byte. -/
def wordBytes : Nat → Nat → List Byte
  | 0, _ => []
  | k + 1, w => BitVec.ofNat 8 w :: wordBytes k (w / 256)

/-- How many operand bytes follow a select code in the model's byte form; COMMAND's are as many as given. -/
def operandCount (op : Nat) : Nat :=
  if op = 0x6 then 4 else if op = 0x7 then 1 else if op = 0xB then 4 else 0

/-- The format and bytes a word of the opcode table stands for. The table's four formats share one number
space, so one reading is fixed (log 4): one byte below `0x10` is a select code with operand bytes of zeros, one byte
from `0x10` on is a control byte, and more than one byte is a remote command. -/
def tableBytes (nbits w : Nat) : Format × List Byte :=
  if 8 < nbits then (.rcmd, wordBytes ((nbits + 7) / 8) (w % 2 ^ nbits))
  else if w % 2 ^ nbits < 16 then
    (.hostop, wordBytes (1 + operandCount (w % 2 ^ nbits)) (w % 2 ^ nbits))
  else (.rxctrl, wordBytes 1 (w % 2 ^ nbits))

/-- The instruction the decoder reads from a word of the opcode table. -/
def decodeTableWord (nbits w : Nat) : Option Instr :=
  if nbits = 0 then none
  else
    match decode (tableBytes nbits w).1 (tableBytes nbits w).2 with
    | .ok i => some i
    | .reject _ => none

end Sys2Proof
end

