-- ==== Sys2Proof/Machine/State.lean ====
section
/-!
DEFINITION. The state of RXC (10_state.md) and of the MAC's register interface as plain data, the reasons a
step can stop, and the state after reset (70_reset_and_hazards.md R291).
-/

namespace Sys2Proof.Machine

/-- `life` (R20). -/
inductive Life where
  | uninstalled | installed | running | stopped
  deriving DecidableEq, Repr

/-- The 2-bit coding R20 offers; no rule depends on it. -/
def Life.code (l : Life) : BitVec 2 :=
  match l with
  | .uninstalled => 0
  | .installed => 1
  | .running => 2
  | .stopped => 3

/-- `dr_phase` (R29). -/
inductive DrPhase where
  | idle | count | drain
  deriving DecidableEq, Repr

/-- `sw_kind` (R46). -/
inductive SweepKind where
  | none | deny | allow
  deriving DecidableEq, Repr

/-- The operations the critical section can hold (20_memory.md R72). -/
inductive HeldOp where
  | install | start | uninstall
  deriving DecidableEq, Repr

/-- The class of a raw message (40_frame.md R130). -/
inductive CaptureClass where
  | remote | extended | standardData
  deriving DecidableEq, Repr

/-- The error kinds X1 to X6 (60_exceptions.md R248). -/
inductive ErrKind where
  | fatalConfig | bringUpFailure | transientBusError | overflow | badCommand | refused
  deriving DecidableEq, Repr

/-- One entry of the watched-identifier table (R23). `dflt`, `rate` and `count` are `RATE_W`-bit numbers
held as numbers; `TableInv` bounds them by `2 ^ RATE_W` (log 21). -/
structure Entry where
  id : Word32
  dflt : Nat
  rate : Nat
  count : Nat
  deriving DecidableEq, Repr

/-- One `log` event (R32 c, R155): the kind, the first byte if there is one, the length. -/
structure LogEntry where
  kind : ErrKind
  first : Option Byte
  len : Nat
  deriving DecidableEq, Repr

/-- The MAC's registers RXC can see (10_state.md section 2), each with its 8 significant bits; the
acceptance filter's four words each way are one 32-bit value (R38). -/
structure Mac where
  /-- `MAC.MODE` (R33): `RM` bit 0, `AFM` bit 3. Bits 1, 2, 4 to 7 are reserved: no step reads them, and a read
  of the register returns other, free values there (log 31). -/
  mode : Byte
  /-- `MAC.IER` (R36). -/
  ier : Byte
  /-- `MAC.ISR` (R35). -/
  isr : Byte
  /-- `BTR0` (R37): `brp` 5:0, `sjw` 7:6. -/
  btr0 : Byte
  /-- `BTR1` (R37): `tseg1` 3:0, `tseg2` 6:4, `sam` 7. -/
  btr1 : Byte
  /-- `ACR0..ACR3` (R38). -/
  code : Word32
  /-- `AMR0..AMR3` (R38). -/
  mask : Word32
  /-- `MAC.RXQ` (R39), oldest first. -/
  rxq : List RawMsg
  deriving DecidableEq, Repr

/-- What the last operation handed its caller (R32 d; the model's own record, log 13). -/
inductive Ret where
  /-- No operation has returned yet. -/
  | none
  /-- The operation returns nothing. -/
  | unit
  | bool (b : Bool)
  | frame (f : Option Frame)
  | depth (d : Nat)
  | count (c : Word32)
  | captured (c : CaptureClass)
  deriving DecidableEq, Repr

/-- One turn of the schedule (00_scope.md R7; log 1): which agent may move next, with what the outside
hands it. -/
inductive Turn where
  /-- The host issues the operation these bytes encode. -/
  | host (bytes : List Byte)
  /-- The host goes on with its own unfinished operation: a sweep (R147) or a held operation (R72). -/
  | hostOwn
  | drainer
  | syncW
  | syncR
  /-- A message arrives from the bus (R254). -/
  | macRx (m : RawMsg)
  /-- An error condition occurs on the bus (R255). -/
  | macErr (b : ErrBit)
  /-- The power-on event (R290). -/
  | powerOn
  deriving DecidableEq, Repr

/-- The whole machine. -/
structure State where
  /-- The parameters (R5); no operation writes them. -/
  cfg : Config
  /-- RESET has happened (R290; log 17). -/
  powered : Bool
  life : Life
  running : Bool
  /-- The watched-identifier table (R23). -/
  tab : List Entry
  /-- `sw_kind` (R46). -/
  swKind : SweepKind
  /-- `sw_k` (R46). -/
  swK : Nat
  /-- The queue storage, `N` frames (R25). -/
  slots : List Frame
  /-- The write pointer, counting modulo `2N` (R26; log 22). -/
  wptr : Nat
  /-- The read pointer, counting modulo `2N` (R26; log 22). -/
  rptr : Nat
  /-- The consumer side's copy of `wptr`, in Gray code (R27). -/
  wptrGs : Nat
  /-- The producer side's copy of `rptr`, in Gray code (R27). -/
  rptrGs : Nat
  /-- `q_alloc` (R28). -/
  qAlloc : Bool
  /-- `dr_phase` (R29). -/
  drPhase : DrPhase
  /-- `dr_remaining` (R29). -/
  drRemaining : BitVec 8
  /-- `dr_pushed` (R29). -/
  drPushed : Bool
  /-- `rxpin_floating` (R30). -/
  rxpinFloating : Bool
  cntIrq : Word32
  cntErr : Word32
  cntAdmitted : Word32
  cntForwarded : Word32
  /-- `fault_cfg` (R49). -/
  faultCfg : Bool
  /-- The 13-byte strings handed to the transport, in order (R32 a). -/
  sink : List (List Byte)
  /-- How many `resched` events were emitted (R32 b; log 26). -/
  resched : Nat
  /-- The `log` events, in order (R32 c). -/
  log : List LogEntry
  /-- The lifecycle operation the host is held in (R72, R207; log 15). -/
  hostHeld : Option HeldOp
  mac : Mac
  /-- The turns to come (log 1): the model's own field. -/
  agenda : List Turn
  /-- The environment's answers to the draws of `RESET_ACK`, in order (R5; log 7): the model's own field. -/
  resetAcks : List Bool
  /-- How many free values were drawn (log 8): the model's own field. -/
  draws : Nat
  /-- What the last operation returned (log 13): the model's own field. -/
  ret : Ret
  deriving DecidableEq, Repr

/-- Why the machine stops for good. -/
inductive Fault where
  /-- X1, FatalConfig (R10, R49, R140): the configuration is ill-formed and the block is stopped at boot.
  Raised by every operation and turn of HOST, DRAINER, SYNC_W and SYNC_R while `fault_cfg` is set. Safe: the spec enables
  nothing there. -/
  | fatalConfig
  deriving DecidableEq, Repr

/-- Why an instruction has no meaning in a state. All are safe: nothing can be proved of a next state. -/
inductive Refusal where
  /-- An arm of the dispatcher without a meaning. Raised by no arm of this model. Safe. -/
  | notModelled (mnemonic : String)
  /-- X6 (R208): a host operation in a value of `life` or `q_alloc` that does not accept it. Raised by the
  host operations' meanings. Safe: R208 asks for a refusal. -/
  | wrongState (mnemonic : String)
  /-- X6 (R105 d, R208): a reserved select code. Raised by HOSTOP.RESERVED. Safe: R208 asks for a refusal. -/
  | reservedSelect (op : BitVec 4)
  /-- The host is inside a sweep or held in another operation and cannot issue this one (R46, R207; log 16).
  Raised by the host operations' meanings; a step never does, since it lets the host finish first. Safe. -/
  | hostBusy (mnemonic : String)
  /-- The step of another agent, or an internal function, whose enabling condition does not hold (R10;
  log 19). Raised by the meanings; a turn given to such an agent passes instead. Safe. -/
  | notEnabled (mnemonic : String)
  /-- Nothing happens before RESET (R290; log 17). Raised by every meaning but RESET's. Safe. -/
  | notPowered
  /-- RESET happens once (R290; log 17). Raised by RESET. Safe. -/
  | alreadyReset
  /-- The bytes handed to the host port are no host operation (log 4). Raised by the fetch. Safe. -/
  | undecodable (e : DecodeError)
  deriving DecidableEq, Repr

/-- One outcome of an instruction. -/
abbrev Result := Host.Outcome State Fault Refusal

/-- The table DEC.NEW builds (R140): `rate` at the default, `count` at 0. -/
def freshTable {w : Nat} (profile : List (ProfileEntry w)) : List Entry :=
  profile.map fun e => ⟨e.id, e.dflt.toNat, e.dflt.toNat, 0⟩

/-- The MAC at power-on as `State.reset` names it; DESIGN CHOICE, the spec leaves it open (U10, U11; log 9). -/
def Mac.zero : Mac := ⟨0, 0, 0, 0, 0, 0, 0, []⟩

/-- The machine right after RESET with configuration `c` (R291). Slots and the MAC's registers are
unspecified by R291; their values here are DESIGN CHOICES (log 9, log 10). -/
def State.resetWith (c : Config) : State where
  cfg := c
  powered := true
  life := .uninstalled
  running := false
  tab := freshTable c.profile
  swKind := .none
  swK := 0
  slots := List.replicate c.n Frame.zero
  wptr := 0
  rptr := 0
  wptrGs := 0
  rptrGs := 0
  qAlloc := false
  drPhase := .idle
  drRemaining := 0
  drPushed := false
  rxpinFloating := false
  cntIrq := 0
  cntErr := 0
  cntAdmitted := 0
  cntForwarded := 0
  faultCfg := !c.wf
  sink := []
  resched := 0
  log := []
  hostHeld := none
  mac := Mac.zero
  agenda := []
  resetAcks := []
  draws := 0
  ret := .none

/-- The machine right after reset, with the reference configuration (log 5). -/
def State.reset : State := State.resetWith Config.reference

/-- The queue storage has its shape: exactly `N` frames (R25). -/
def storageWf (s : State) : Bool := s.slots.length == s.cfg.n

end Sys2Proof.Machine
end

