-- ==== Sys2Proof/Machine/Operands.lean ====
section
/-!
DEFINITION. Operand forms: the control byte's fields, the identifier's assembly, a Frame's three views, the
capture class (40_frame.md), and the MAC's register names, words and indices (10_state.md R33 to R42).
-/

namespace Sys2Proof.Machine

/-! ### The control byte (30_encoding.md R91) -/

/-- `dlc`, bits 3:0. -/
def ctlDlc (c : Byte) : Nat := (c &&& 0x0F).toNat

/-- `sr`, bit 4. -/
def ctlSr (c : Byte) : Bool := c.getLsbD 4

/-- `ss`, bit 5. -/
def ctlSs (c : Byte) : Bool := c.getLsbD 5

/-- `rtr`, bit 6. -/
def ctlRtr (c : Byte) : Bool := c.getLsbD 6

/-- `ff`, bit 7. -/
def ctlFf (c : Byte) : Bool := c.getLsbD 7

/-- `CAPTURE.CLASS(c)` (R130): remote is tested first. -/
def captureClass (c : Byte) : CaptureClass :=
  if ctlRtr c then .remote else if ctlFf c then .extended else .standardData

/-! ### The Frame (R92, R94, R131, R133) -/

/-- `zext_32((w[1] << 3) | (w[2] >> 5))` (R94). -/
def assembleId (w1 w2 : Byte) : Word32 := (w1.setWidth 32 <<< 3) ||| (w2.setWidth 32 >>> 5)

/-- The identifier of a raw message. -/
def msgId (w : RawMsg) : Word32 := assembleId w[1] w[2]

/-- A payload byte: the message's below the length, zero from it on (R131 c). -/
def payloadByte (n i : Nat) (b : Byte) : Byte := if i < n then b else 0

/-- `FRAME.BUILD(w)` (R131): the length is clamped to 8, `sr` and `ss` are dropped. -/
def frameBuild (w : RawMsg) : Frame :=
  let n := min (ctlDlc w[0]) 8
  { control := BitVec.ofNat 8 n
    id := msgId w
    payload := #v[payloadByte n 0 w[3], payloadByte n 1 w[4], payloadByte n 2 w[5], payloadByte n 3 w[6],
      payloadByte n 4 w[7], payloadByte n 5 w[8], payloadByte n 6 w[9], payloadByte n 7 w[10]] }

/-- `FRAME.BYTES(f)` (R133): 13 bytes, the identifier low byte first. -/
def frameBytes (f : Frame) : List Byte :=
  [f.control, f.id.extractLsb' 0 8, f.id.extractLsb' 8 8, f.id.extractLsb' 16 8, f.id.extractLsb' 24 8,
    f.payload[0], f.payload[1], f.payload[2], f.payload[3], f.payload[4], f.payload[5], f.payload[6],
    f.payload[7]]

/-- The 104-bit value of a slot (R92): byte 0 in bits 7:0. -/
def frameBits (f : Frame) : BitVec 104 :=
  f.payload[7] ++ f.payload[6] ++ f.payload[5] ++ f.payload[4] ++ f.payload[3] ++ f.payload[2] ++
    f.payload[1] ++ f.payload[0] ++ f.id ++ f.control

/-- The Frame invariants (R132). -/
def frameOk (f : Frame) : Bool :=
  f.control &&& 0xF0 == 0 && decide (ctlDlc f.control ≤ 8) && decide (f.id ≤ 0x7FF) &&
    (List.finRange 8).all fun i => decide (i.val < ctlDlc f.control) || f.payload[i] == 0

/-! ### The MAC's registers -/

/-- The register names of R42. -/
inductive RegName where
  | mode | cmd | isr | ier | btr0 | btr1
  | acr (i : Fin 4) | amr (i : Fin 4) | rxbuf (i : Fin 13)
  | rmc
  deriving DecidableEq, Repr

/-- The word index of a register (R42). -/
def regIndex (r : RegName) : Nat :=
  match r with
  | .mode => 0
  | .cmd => 1
  | .isr => 3
  | .ier => 4
  | .btr0 => 6
  | .btr1 => 7
  | .acr i => 16 + i.val
  | .amr i => 20 + i.val
  | .rxbuf i => 16 + i.val
  | .rmc => 29

/-- The register an index names, in configuration mode or in operational mode (R42's "when" column). -/
def regAt (configMode : Bool) (index : Nat) : Option RegName :=
  if index = 0 then some .mode
  else if index = 1 then some .cmd
  else if index = 3 then some .isr
  else if index = 4 then some .ier
  else if index = 29 then some .rmc
  else if configMode then
    if index = 6 then some .btr0
    else if index = 7 then some .btr1
    else if 16 ≤ index ∧ index < 20 then some (.acr (Fin.ofNat 4 (index - 16)))
    else if 20 ≤ index ∧ index < 24 then some (.amr (Fin.ofNat 4 (index - 20)))
    else none
  else if 16 ≤ index ∧ index < 29 then some (.rxbuf (Fin.ofNat 13 (index - 16)))
  else none

/-- `RM` of a mode byte (R33, bit 0): configuration mode. -/
def modeRm (m : Byte) : Bool := m.getLsbD 0

/-- `AFM` of a mode byte (R33, bit 3): single filter. -/
def modeAfm (m : Byte) : Bool := m.getLsbD 3

/-- The mode word with the reserved bits written 0 (R33, R105 f). -/
def modeByte (rm afm : Bool) : Byte :=
  (if rm then 0x01 else 0x00) ||| (if afm then 0x08 else 0x00)

/-- The word a read of `MAC.MODE` returns for the stored byte `m`: `RM` and `AFM` as stored, the reserved bits
from `free` (R33, U4; log 31). -/
def modeRead (m free : Byte) : Byte := (m &&& 0x09) ||| (free &&& 0xF6)

/-- `CMD` with `RRB` (bit 2) set, every other bit 0 (R34). -/
def cmdRrb : Byte := 0x04

/-- `BTR0` of a timing record (R37): `sjw ++ brp`. -/
def btr0Byte (t : BusTiming) : Byte := t.sjw ++ t.brp

/-- `BTR1` of a timing record (R37): `sam ++ tseg2 ++ tseg1`. -/
def btr1Byte (t : BusTiming) : Byte := BitVec.ofBool t.sam ++ t.tseg2 ++ t.tseg1

/-- `EN_INSTALL` (R35, R36): the receive source and the four error-class sources. -/
def enInstall : Byte := 0xE5

/-- Byte `i` of a filter word, most significant first (R38). -/
def filterByte (v : Word32) (i : Fin 4) : Byte :=
  match i with
  | 0 => v.extractLsb' 24 8
  | 1 => v.extractLsb' 16 8
  | 2 => v.extractLsb' 8 8
  | 3 => v.extractLsb' 0 8

/-- A filter word with byte `i` replaced, most significant first (R38). -/
def setFilterByte (v : Word32) (i : Fin 4) (b : Byte) : Word32 :=
  wordOfBytes (if i = 0 then b else filterByte v 0) (if i = 1 then b else filterByte v 1)
    (if i = 2 then b else filterByte v 2) (if i = 3 then b else filterByte v 3)

end Sys2Proof.Machine
end

