-- ==== Sys2Proof/Machine/Flags.lean ====
section
/-!
DEFINITION. The conditions RXC computes and does not store (10_state.md R22, R29, R41, R45), and the Gray
code its pointers cross in (30_encoding.md R102, R103).
-/

namespace Sys2Proof.Machine

/-! ### Gray code -/

/-- `gray(b) = b xor (b >> 1)` (R102). -/
def gray (b : Nat) : Nat := b ^^^ (b >>> 1)

/-- `ungray` on `pw`-bit values (R102): bit `i` of the result is bit `i` of `g` xor bit `i + 1` of the
result, from the top down. -/
def ungray : Nat → Nat → Nat
  | 0, _ => 0
  | pw + 1, g => g ^^^ ungray pw (g >>> 1)

/-- `(a - b) mod m` on natural numbers (00_scope.md R8). -/
def subMod (a b m : Nat) : Nat := (a + (m - b % m)) % m

/-! ### The queue's two views -/

/-- The modulus of the pointers, `2N` (R26). -/
def ptrMod (s : State) : Nat := 2 * s.cfg.n

/-- The producer's view of the read pointer, `ungray(rptr_gs)` (R173). -/
def rSeen (s : State) : Nat := ungray s.cfg.pw s.rptrGs

/-- The consumer's view of the write pointer, `ungray(wptr_gs)` (R174). -/
def wSeen (s : State) : Nat := ungray s.cfg.pw s.wptrGs

/-- `full_p` (R173): the producer's view of the occupancy is `N`. -/
def fullP (s : State) : Bool := subMod s.wptr (rSeen s) (ptrMod s) == s.cfg.n

/-- `empty_c` (R174): the read pointer equals the consumer's view of the write pointer. -/
def emptyC (s : State) : Bool := s.rptr == wSeen s

/-- The full test in Gray form (R103): the top two of `PW` bits inverted. -/
def fullGray (s : State) : Bool := gray s.wptr == s.rptrGs ^^^ (3 <<< (s.cfg.pw - 2))

/-- The empty test in Gray form (R103). -/
def emptyGray (s : State) : Bool := gray s.rptr == s.wptrGs

/-- `occ`, the true occupancy (42_frame_queue.md R178). -/
def occ (s : State) : Nat := subMod s.wptr s.rptr (ptrMod s)

/-! ### Interrupt and mutual exclusion -/

/-- The interrupt request line (R41): some status bit is set. -/
def irq (s : State) : Bool := s.mac.isr != 0

/-- `cs_held` (R29): the drainer is inside an invocation. -/
def csHeld (s : State) : Bool := s.drPhase != .idle

/-- `handler_installed` (R22). -/
def handlerInstalled (s : State) : Bool := s.life != .uninstalled

/-- DR.ENTRY's enabling condition (R243) but for `fault_cfg`, which the gate tests. -/
def entryReady (s : State) : Bool := handlerInstalled s && s.drPhase == .idle && irq s

/-- DR.MSG's enabling condition (R245). -/
def msgReady (s : State) : Bool := s.drPhase == .drain && s.drRemaining != 0

/-- The host is inside a sweep or held in an operation, and issues nothing else (R46, R207). -/
def hostBusy (s : State) : Bool := s.swKind != .none || s.hostHeld.isSome

/-- The acceptance filter in force (R38): its mode flag is `MAC.MODE.AFM`. -/
def acf (s : State) : Filter := ⟨s.mac.code, s.mac.mask, modeAfm s.mac.mode⟩

/-- MAC.RX takes the message into the FIFO: there is room and the filter passes it (R254). -/
def rxAccepts (s : State) (m : RawMsg) : Bool :=
  decide (s.mac.rxq.length < s.cfg.rxfifoMsgs) && s.cfg.acfMatch (acf s) m

/-- Quiescent (70_reset_and_hazards.md R305). -/
def quiescent (s : State) : Bool :=
  s.drPhase == .idle && s.mac.isr == 0 && s.swKind == .none && s.wptrGs == gray s.wptr &&
    s.rptrGs == gray s.rptr

end Sys2Proof.Machine
end

