-- ==== Sys2Proof/Machine/Ops.lean ====
section
/-!
DEFINITION. The named operations over RXC's storage: register access, the receive window and its release,
the queue, the table, the error kinds, the interrupt's entry and return, and the gates every operation
passes.
-/

namespace Sys2Proof.Machine

/-- Record what an operation hands its caller (log 13). -/
def setRet (r : Ret) (s : State) : State := { s with ret := r }

/-! ### Draws -/

/-- The draw `RESET_ACK` (R5, R256): the environment's next listed answer, else a free value (log 7). -/
def drawAck (s : State) : Bool × State :=
  match s.resetAcks with
  | a :: l => (a, { s with resetAcks := l })
  | [] => (Config.freeAck s.draws, { s with draws := s.draws + 1 })

/-! ### MAC register access (00_scope.md R9; 20_memory.md R63, R64) -/

/-- The receive-buffer window (R39): the head of the FIFO; a free value when it is empty (U3; log 11). -/
def window (s : State) : RawMsg :=
  match s.mac.rxq with
  | m :: _ => m
  | [] => Config.freeWindow s.draws

/-- Reading `MAC.ISR` clears all eight bits (R35, R64). -/
def clearIsr (s : State) : State := { s with mac := { s.mac with isr := 0 } }

/-- The release command (R257): the head leaves the FIFO. On an empty FIFO it does nothing, and the window's
next free value is another one (log 11). -/
def release (s : State) : State :=
  match s.mac.rxq with
  | _ :: l => { s with mac := { s.mac with rxq := l } }
  | [] => { s with draws := s.draws + 1 }

/-- A write of `MAC.MODE` (R33, R256). With `RM` set the MAC enters configuration mode or not, by the draw
`RESET_ACK`: entering stores the mode and empties the FIFO if `MAC_RESET_FLUSH`; otherwise `RM` reads 0 and
the byte's other bits are a free value (log 8). With `RM` clear it always takes effect. DESIGN CHOICE (log 31):
the reserved bits are stored as written, and no read shows them. -/
def writeMode (v : Byte) (s : State) : State :=
  if modeRm v then
    let d := drawAck s
    if d.1 then
      { d.2 with mac := { d.2.mac with
          mode := v, rxq := if d.2.cfg.macResetFlush then [] else d.2.mac.rxq } }
    else
      { d.2 with
        mac := { d.2.mac with mode := Config.freeMode d.2.draws &&& 0xFE }, draws := d.2.draws + 1 }
  else { s with mac := { s.mac with mode := v } }

/-- `RegRead(r)`: one register word, bits 31:8 zero (10_state.md section 2; log 12). Only ISR has a side
effect (R64). DESIGN CHOICE (log 31): the reserved bits 1, 2 and 4 to 7 of MODE, which U4 lets read as
anything, are free values; `RM` and `AFM` read as stored (R33). DESIGN CHOICE (log 12): R37, R38 and R42 state
no read of BTR0, BTR1, ACR0..3, AMR0..3; here the stored byte is read, in either mode, and the window shows
the head in either mode. No step makes such a read. -/
def regRead (r : RegName) (s : State) : Word32 × State :=
  match r with
  | .mode => ((modeRead s.mac.mode (Config.freeModeRead s.draws)).setWidth 32, s)
  | .cmd => ((Config.freeCmd s.draws).setWidth 32, { s with draws := s.draws + 1 })
  | .isr => (s.mac.isr.setWidth 32, clearIsr s)
  | .ier => (s.mac.ier.setWidth 32, s)
  | .btr0 => (s.mac.btr0.setWidth 32, s)
  | .btr1 => (s.mac.btr1.setWidth 32, s)
  | .acr i => ((filterByte s.mac.code i).setWidth 32, s)
  | .amr i => ((filterByte s.mac.mask i).setWidth 32, s)
  | .rxbuf i => ((window s)[i].setWidth 32, s)
  | .rmc => ((BitVec.ofNat 8 s.mac.rxq.length).setWidth 32, s)

/-- `RegWrite(r, v)`: one register word, of which bits 7:0 count (10_state.md section 2). CMD with `RRB` is
the release command (R64, R257). BTR and ACF are writable only in configuration mode (R37, R38; log 12);
ISR, the window and RMC are read-only (R35, R39, R40). -/
def regWrite (r : RegName) (v : Word32) (s : State) : State :=
  let b : Byte := v.setWidth 8
  match r with
  | .mode => writeMode b s
  | .cmd => if b.getLsbD 2 then release s else s
  | .ier => { s with mac := { s.mac with ier := b } }
  | .btr0 => if modeRm s.mac.mode then { s with mac := { s.mac with btr0 := b } } else s
  | .btr1 => if modeRm s.mac.mode then { s with mac := { s.mac with btr1 := b } } else s
  | .acr i =>
    if modeRm s.mac.mode then { s with mac := { s.mac with code := setFilterByte s.mac.code i b } }
    else s
  | .amr i =>
    if modeRm s.mac.mode then { s with mac := { s.mac with mask := setFilterByte s.mac.mask i b } }
    else s
  | .isr | .rxbuf _ | .rmc => s

/-- The timing words, from `PROFILE.timing` (R201). -/
def writeTiming (t : BusTiming) (s : State) : State :=
  regWrite .btr1 ((btr1Byte t).setWidth 32) (regWrite .btr0 ((btr0Byte t).setWidth 32) s)

/-- `ACR0..3` from a code (R38, R201). -/
def writeCode (v : Word32) (s : State) : State :=
  regWrite (.acr 3) ((filterByte v 3).setWidth 32) (regWrite (.acr 2) ((filterByte v 2).setWidth 32)
    (regWrite (.acr 1) ((filterByte v 1).setWidth 32) (regWrite (.acr 0) ((filterByte v 0).setWidth 32) s)))

/-- `AMR0..3` from a mask (R38, R201). -/
def writeMask (v : Word32) (s : State) : State :=
  regWrite (.amr 3) ((filterByte v 3).setWidth 32) (regWrite (.amr 2) ((filterByte v 2).setWidth 32)
    (regWrite (.amr 1) ((filterByte v 1).setWidth 32) (regWrite (.amr 0) ((filterByte v 0).setWidth 32) s)))

/-! ### The queue (42_frame_queue.md) -/

/-- `Q.CLEAR` (R172): the four pointer values to zero. -/
def qClear (s : State) : State := { s with wptr := 0, rptr := 0, wptrGs := 0, rptrGs := 0 }

/-- `Q.ALLOC` (R170): the storage exists, the pointers are zero, the slots keep what they held. -/
def qAllocate (s : State) : State := { qClear s with qAlloc := true }

/-- `Q.FREE` (R171). -/
def qFree (s : State) : State := { s with qAlloc := false }

/-- The frame in a slot. A place outside the storage holds a free value (log 30). -/
def readSlot (s : State) (i : Nat) : Frame :=
  match s.slots[i]? with
  | some f => f
  | none => Config.freeSlot s.draws i

/-- `TRY_PUSH(f)` (R173): the slot and the pointer, or nothing when the producer sees the queue full. -/
def tryPush (f : Frame) (s : State) : Bool × State :=
  if fullP s then (false, s)
  else
    (true, { s with slots := s.slots.set (s.wptr % s.cfg.n) f, wptr := (s.wptr + 1) % ptrMod s })

/-- `TRY_POP` (R174): the oldest frame and the pointer, or nothing when the consumer sees the queue empty. -/
def tryPop (s : State) : Option Frame × State :=
  if emptyC s then (none, s)
  else (some (readSlot s (s.rptr % s.cfg.n)), { s with rptr := (s.rptr + 1) % ptrMod s })

/-- `DEPTH` (R177): the occupancy the consumer side sees. -/
def depth (s : State) : Nat := subMod (wSeen s) s.rptr (ptrMod s)

/-! ### The table (41_decoder.md) -/

/-- The binary search of `LOOKUP` (R141) on `[lo, hi)`, with at most as many halvings as the first argument. -/
def search (tab : List Entry) (id : Word32) : Nat → Nat → Nat → Option Nat
  | 0, _, _ => none
  | fuel + 1, lo, hi =>
    if lo < hi then
      match tab[(lo + hi) / 2]? with
      | none => none
      | some e =>
        if e.id = id then some ((lo + hi) / 2)
        else if e.id < id then search tab id fuel ((lo + hi) / 2 + 1) hi
        else search tab id fuel lo ((lo + hi) / 2)
    else none

/-- `LOOKUP(id)` (R141). -/
def lookup (tab : List Entry) (id : Word32) : Option Nat := search tab id tab.length 0 tab.length

/-- The admission test on one entry (R143): the answer and the entry afterwards. -/
def admitEntry (e : Entry) : Bool × Entry :=
  if e.rate = 0 then (false, e)
  else if e.rate ≤ e.count + 1 then (true, { e with count := 0 })
  else (false, { e with count := e.count + 1 })

/-- `SHOULD_DECODE(id)` on the table (R143). -/
def admission (tab : List Entry) (id : Word32) : Bool × List Entry :=
  match lookup tab id with
  | none => (false, tab)
  | some k =>
    match tab[k]? with
    | none => (false, tab)
    | some e => ((admitEntry e).1, tab.set k (admitEntry e).2)

/-- `SHOULD_DECODE(id)` (R143). -/
def shouldDecode (id : Word32) (s : State) : Bool × State :=
  ((admission s.tab id).1, { s with tab := (admission s.tab id).2 })

/-- What an allow does to one entry (R146, R147): the default rate and a fresh count. -/
def allowEntry (e : Entry) : Entry := { e with rate := e.dflt, count := 0 }

/-- What a deny does to one entry (R147): the rate only. -/
def denyEntry (e : Entry) : Entry := { e with rate := 0 }

/-- `ALLOW_ID(id)` on the table (R146). -/
def allowInTable (tab : List Entry) (id : Word32) : List Entry :=
  match lookup tab id with
  | none => tab
  | some k => tab.modify k allowEntry

/-- Start a table-wide command (R144, R145); with an empty table there is nothing to do. -/
def startSweep (k : SweepKind) (s : State) : State :=
  if s.tab.length = 0 then s else { s with swKind := k, swK := 0 }

/-- One entry of a table-wide command (R147). -/
def sweepTable (k : SweepKind) (i : Nat) (tab : List Entry) : List Entry :=
  match k with
  | .none => tab
  | .deny => tab.modify i denyEntry
  | .allow => tab.modify i allowEntry

/-- `SWEEP.STEP` (R147). -/
def sweepOne (s : State) : State :=
  { s with
    tab := sweepTable s.swKind s.swK s.tab
    swK := s.swK + 1
    swKind := if s.swK + 1 = s.tab.length then .none else s.swKind }

/-! ### Error kinds and the interrupt -/

/-- The number of an error kind, `X1` to `X6` (R248); no rule depends on it. -/
def errCode (e : ErrKind) : Nat :=
  match e with
  | .fatalConfig => 1
  | .bringUpFailure => 2
  | .transientBusError => 3
  | .overflow => 4
  | .badCommand => 5
  | .refused => 6

/-- `raise` (R9, R248): an error kind changes only what its row of R248 records. `b` are the bytes of a
malformed command. -/
def raise (e : ErrKind) (b : List Byte) (s : State) : State :=
  match e with
  | .fatalConfig => { s with faultCfg := true }
  | .bringUpFailure => setRet (.bool false) s
  | .transientBusError => { s with cntErr := s.cntErr + 1 }
  | .overflow => s
  | .badCommand => { s with log := s.log ++ [⟨.badCommand, b.head?, b.length⟩] }
  | .refused => s

/-- Taking the interrupt (R243): count it, read and clear the status, forget earlier pushes. Nothing is
saved and there is no vector. Answers the status read. -/
def takeInterrupt (s : State) : Byte × State :=
  let r := regRead .isr { s with cntIrq := s.cntIrq + 1 }
  (r.1.setWidth 8, { r.2 with drPushed := false })

/-- Returning from the interrupt (R246): the critical section is free; a reschedule is signalled if some push of
the invocation succeeded. -/
def leaveInterrupt (s : State) : State :=
  { s with drPhase := .idle, resched := if s.drPushed then s.resched + 1 else s.resched }

/-! ### Gates -/

/-- Nothing happens before RESET (R290), and nothing of RXC's after a fatal configuration (R49). -/
def gated (s : State) (r : Result) : Result :=
  if !s.powered then .refused .notPowered
  else if s.faultCfg then .fault .fatalConfig
  else r

/-- A host operation is issued only when the host is done with the one before (R46, R207). -/
def hostGated (mnemonic : String) (s : State) (r : Result) : Result :=
  gated s (if hostBusy s then .refused (.hostBusy mnemonic) else r)

/-- A lifecycle operation the critical section excludes (R72): it is held while the drainer is inside an
invocation, and the host with it (log 15). -/
def heldOr (op : HeldOp) (s : State) (r : Result) : Result :=
  if csHeld s then .next { s with hostHeld := some op } else r

/-- A step of RXC that is enabled under a condition (R10; log 19). -/
def stepWhen (mnemonic : String) (enabled : Bool) (s : State) (s' : State) : Result :=
  gated s (if enabled then .next s' else .refused (.notEnabled mnemonic))

/-- A step of the environment (R253): the MAC does not read `fault_cfg`. -/
def macWhen (mnemonic : String) (enabled : Bool) (s : State) (s' : State) : Result :=
  if !s.powered then .refused .notPowered
  else if enabled then .next s' else .refused (.notEnabled mnemonic)

end Sys2Proof.Machine
end

