-- ==== Sys2Proof/Machine/Decoder.lean ====
section
/-!
DEFINITION. The decoder's operations (41_decoder.md): the admission test, the mutations, the remote
commands, the sweep, and the capture class (40_frame.md R130).
-/

namespace Sys2Proof.Machine

/-- `DENY_ALL` (R144). -/
def execDenyAll (s : State) : Result :=
  hostGated "DENY_ALL" s (.next (setRet .unit (startSweep .deny s)))

/-- `ALLOW_ALL` (R145). -/
def execAllowAll (s : State) : Result :=
  hostGated "ALLOW_ALL" s (.next (setRet .unit (startSweep .allow s)))

/-- `ALLOW_ID(id)` (R146). -/
def execAllowId (id : Word32) (s : State) : Result :=
  hostGated "ALLOW_ID" s (.next (setRet .unit { s with tab := allowInTable s.tab id }))

/-- `CMD.DENY_ALL` (R152): performs DENY_ALL. -/
def execCmdDenyAll (s : State) : Result :=
  hostGated "CMD.DENY_ALL" s (.next (setRet .unit (startSweep .deny s)))

/-- `CMD.ALLOW_ALL` (R153): performs ALLOW_ALL; the interval is never read. -/
def execCmdAllowAll (_interval : BitVec 16) (s : State) : Result :=
  hostGated "CMD.ALLOW_ALL" s (.next (setRet .unit (startSweep .allow s)))

/-- `CMD.ALLOW_ID` (R154): performs ALLOW_ID; the interval is never read. -/
def execCmdAllowId (_interval : BitVec 16) (id : Word32) (s : State) : Result :=
  hostGated "CMD.ALLOW_ID" s (.next (setRet .unit { s with tab := allowInTable s.tab id }))

/-- `CMD.INVALID` (R155): one `log` event and nothing else. -/
def execCmdInvalid (b : List Byte) (s : State) : Result :=
  hostGated "CMD.INVALID" s (.next (setRet .unit (raise .badCommand b s)))

/-- `COMMAND(len, b)` (R151): what the bytes decode to is performed. -/
def execCommand (b : List Byte) (s : State) : Result :=
  match decodeRcmd b with
  | .cmdDenyAll => execCmdDenyAll s
  | .cmdAllowAll interval => execCmdAllowAll interval s
  | .cmdAllowId interval id => execCmdAllowId interval id s
  | _ => execCmdInvalid b s

/-- `SWEEP.STEP` (R147): enabled exactly while a sweep is in progress. -/
def execSweepStep (s : State) : Result :=
  stepWhen "SWEEP.STEP" (s.swKind != .none) s (sweepOne s)

/-- `SHOULD_DECODE(id)` (R143), as a row of its own (log 24). -/
def execShouldDecode (id : Word32) (s : State) : Result :=
  stepWhen "SHOULD_DECODE" true s (setRet (.bool (shouldDecode id s).1) (shouldDecode id s).2)

/-- `CAPTURE.CLASS(c)` (R130), as a row of its own (log 24). -/
def execCaptureClass (c : Byte) (s : State) : Result :=
  stepWhen "CAPTURE.CLASS" true s (setRet (.captured (captureClass c)) s)

end Sys2Proof.Machine
end

