-- ==== Sys2Proof/Machine/Drainer.lean ====
section
/-!
DEFINITION. The drainer, the interrupt handler as a sequencer (60_exceptions.md section 3).
-/

namespace Sys2Proof.Machine

/-- DR.ENTRY's receive branch (R243): the critical section is held, the count follows. -/
def entryRx (s : State) : State := { (takeInterrupt s).2 with drPhase := .count }

/-- `DR.ENTRY.RX` (R243, R244): the status read has `RX`. -/
def execDrEntryRx (s : State) : Result :=
  stepWhen "DR.ENTRY.RX" (entryReady s && decide (decodeIsr s.mac.isr = .drEntryRx)) s (entryRx s)

/-- `DR.ENTRY.ERR` (R243, R244): no `RX`, some error-class bit; one error is counted. -/
def execDrEntryErr (s : State) : Result :=
  stepWhen "DR.ENTRY.ERR" (entryReady s && decide (decodeIsr s.mac.isr = .drEntryErr)) s
    (raise .transientBusError [] (takeInterrupt s).2)

/-- `DR.ENTRY.NONE` (R243): only masked bits; nothing but the interrupt count. -/
def execDrEntryNone (s : State) : Result :=
  stepWhen "DR.ENTRY.NONE" (entryReady s && decide (decodeIsr s.mac.isr = .drEntryNone)) s
    (takeInterrupt s).2

/-- `DR.COUNT` (R263): the message count is read once. -/
def execDrCount (s : State) : Result :=
  stepWhen "DR.COUNT" (s.drPhase == .count) s
    { s with drRemaining := (regRead .rmc s).1.setWidth 8, drPhase := .drain }

/-- The end of every DR.MSG branch (R245, R293): the slot is released, one message fewer remains. -/
def finishMessage (s : State) : State :=
  let s1 := regWrite .cmd (cmdRrb.setWidth 32) s
  { s1 with drRemaining := s1.drRemaining - 1 }

/-- The class of the message in the window (R245). -/
def headClass (s : State) : CaptureClass := captureClass (window s)[0]

/-- `DR.MSG.RTR` (R245): released, never queued. -/
def execDrMsgRtr (s : State) : Result :=
  stepWhen "DR.MSG.RTR" (msgReady s && decide (headClass s = .remote)) s (finishMessage s)

/-- `DR.MSG.EXT` (R245): released, never queued. -/
def execDrMsgExt (s : State) : Result :=
  stepWhen "DR.MSG.EXT" (msgReady s && decide (headClass s = .extended)) s (finishMessage s)

/-- Pushing an admitted message (R245): the frame is counted whether or not the push succeeds. -/
def pushAdmitted (w : RawMsg) (s : State) : State :=
  let p := tryPush (frameBuild w) s
  let t := if p.1 then { p.2 with drPushed := true } else raise .overflow [] p.2
  { t with cntAdmitted := t.cntAdmitted + 1 }

/-- The standard branch before the release (R245): the admission test, then perhaps the push. -/
def admitMessage (w : RawMsg) (s : State) : State :=
  if (shouldDecode (msgId w) s).1 then pushAdmitted w (shouldDecode (msgId w) s).2
  else (shouldDecode (msgId w) s).2

/-- `DR.MSG.STD` (R245). An admitted message needs the queue (R173; log 28). -/
def execDrMsgStd (s : State) : Result :=
  stepWhen "DR.MSG.STD"
    (msgReady s && decide (headClass s = .standardData) &&
      (s.qAlloc || !(shouldDecode (msgId (window s)) s).1))
    s (finishMessage (admitMessage (window s) s))

/-- `DR.EXIT` (R246). -/
def execDrExit (s : State) : Result :=
  stepWhen "DR.EXIT" (s.drPhase == .drain && s.drRemaining == 0) s (leaveInterrupt s)

end Sys2Proof.Machine
end

