-- ==== Sys2Proof/Machine/HostPort.lean ====
section
/-!
DEFINITION. Polling, diagnostics and the reserved select codes of the host port (43_controller.md section 3,
42_frame_queue.md R177, 41_decoder.md R142).
-/

namespace Sys2Proof.Machine

/-- RECV's one atomic step (R205): at most one frame, handed to the sink and counted. -/
def recvBody (s : State) : State :=
  match (tryPop s).1 with
  | none => setRet (.frame none) (tryPop s).2
  | some f =>
    { (tryPop s).2 with
      sink := s.sink ++ [frameBytes f]
      cntForwarded := s.cntForwarded + 1
      ret := .frame (some f) }

/-- `RECV` (R205): while the queue exists; never held. -/
def execRecv (s : State) : Result :=
  hostGated "RECV" s
    (if s.qAlloc then .next (recvBody s) else .refused (.wrongState "RECV"))

/-- `DEPTH` (R177): while the queue exists. -/
def execDepth (s : State) : Result :=
  hostGated "DEPTH" s
    (if s.qAlloc then .next (setRet (.depth (depth s)) s) else .refused (.wrongState "DEPTH"))

/-- `CAN_DECODE(id)` (R142): membership, whatever the rate. -/
def execCanDecode (id : Word32) (s : State) : Result :=
  hostGated "CAN_DECODE" s (.next (setRet (.bool (lookup s.tab id).isSome) s))

/-- The counter `sel` names (R206). -/
def counter (sel : CounterSel) (s : State) : Word32 :=
  match sel with
  | .irq => s.cntIrq
  | .err => s.cntErr
  | .admitted => s.cntAdmitted
  | .forwarded => s.cntForwarded

/-- The counter `sel` names at zero (R206). -/
def zeroCounter (sel : CounterSel) (s : State) : State :=
  match sel with
  | .irq => { s with cntIrq := 0 }
  | .err => { s with cntErr := 0 }
  | .admitted => { s with cntAdmitted := 0 }
  | .forwarded => { s with cntForwarded := 0 }

/-- `SNAPSHOT(sel)` (R206): exchange one counter with zero; accepted in every value of `life`. -/
def execSnapshot (sel : CounterSel) (s : State) : Result :=
  hostGated "SNAPSHOT" s (.next (setRet (.count (counter sel s)) (zeroCounter sel s)))

/-- `HOSTOP.RESERVED` (R105 d, R208): refused in every state. -/
def execHostopReserved (low : BitVec 2) (_s : State) : Result :=
  .refused (.reservedSelect (3#2 ++ low))

end Sys2Proof.Machine
end

