-- ==== Sys2Proof/Machine/Lifecycle.lean ====
section
/-!
DEFINITION. The lifecycle operations of the host port (43_controller.md section 2).
-/

namespace Sys2Proof.Machine

/-- INSTALL once the MAC is in configuration mode (R201): timing, filter, enable mask, status, pin, `life`. -/
def installConfigure (s : State) : State :=
  let s1 := writeMask s.cfg.filter.mask (writeCode s.cfg.filter.code (writeTiming s.cfg.timing s))
  let s2 := (regRead .isr (regWrite .ier (enInstall.setWidth 32) s1)).2
  { s2 with rxpinFloating := true, running := false, life := .installed, ret := .bool true }

/-- INSTALL's one atomic step (R201): the storage, the request for configuration mode, the mode read back. -/
def installBody (s : State) : State :=
  let s1 := regWrite .mode ((modeByte true s.cfg.filter.single).setWidth 32) (qAllocate s)
  if (regRead .mode s1).1.getLsbD 0 then installConfigure s1 else raise .bringUpFailure [] (qFree s1)

/-- `INSTALL` (R201): from `Uninstalled` only; held by the critical section (R72). -/
def execInstall (s : State) : Result :=
  hostGated "INSTALL" s
    (if s.life = .uninstalled then heldOr .install s (.next (installBody s))
    else .refused (.wrongState "INSTALL"))

/-- START's one atomic step (R202). -/
def startBody (s : State) : State :=
  let s1 := (regRead .isr (qClear s)).2
  let s2 := regWrite .mode ((modeByte false (modeAfm s1.mac.mode)).setWidth 32) s1
  { s2 with running := true, life := .running, ret := .unit }

/-- `START` (R202): from `Installed` or `Stopped`; held by the critical section (R72). -/
def execStart (s : State) : Result :=
  hostGated "START" s
    (if s.life = .installed ∨ s.life = .stopped then heldOr .start s (.next (startBody s))
    else .refused (.wrongState "START"))

/-- `STOP` (R203): from `Running` only; nothing but `life` changes; never held. -/
def execStop (s : State) : Result :=
  hostGated "STOP" s
    (if s.life = .running then .next { s with life := .stopped, ret := .unit }
    else .refused (.wrongState "STOP"))

/-- UNINSTALL's one atomic step (R204). -/
def uninstallBody (s : State) : State :=
  let s1 := qFree (regRead .isr (regWrite .ier 0 s)).2
  { s1 with running := false, life := .uninstalled, ret := .unit }

/-- `UNINSTALL` (R204): from the three installed states; held by the critical section (R72). -/
def execUninstall (s : State) : Result :=
  hostGated "UNINSTALL" s
    (if s.life = .uninstalled then .refused (.wrongState "UNINSTALL")
    else heldOr .uninstall s (.next (uninstallBody s)))

end Sys2Proof.Machine
end

