-- ==== Sys2Proof/Machine/MacEnv.lean ====
section
/-!
DEFINITION. The environment's steps (60_exceptions.md section 5): a replaceable part (R253). The mode, the
draw and the release command, which RXC's writes cause, are in Ops.lean.
-/

namespace Sys2Proof.Machine

/-- Setting a status bit (R242, R258): only while the same bit of `MAC.IER` is set; a masked event leaves no
trace. -/
def setStatus (b : Nat) (s : State) : State :=
  if s.mac.ier.getLsbD b then
    { s with mac := { s.mac with isr := s.mac.isr ||| (1#8 <<< b) } }
  else s

/-- A message reaches the MAC (R254): appended, with its status bit, or lost with no change when the FIFO is
full or the filter rejects it (log 20). -/
def receive (m : RawMsg) (s : State) : State :=
  if rxAccepts s m then setStatus 0 { s with mac := { s.mac with rxq := s.mac.rxq ++ [m] } } else s

/-- `MAC.RX(m)` (R254): while the MAC is operational. -/
def execMacRx (m : RawMsg) (s : State) : Result :=
  macWhen "MAC.RX" (!modeRm s.mac.mode) s (receive m s)

/-- `MAC.ERR(b)` (R255): while the MAC is operational; a masked error leaves no trace (R258; log 20). -/
def execMacErr (b : ErrBit) (s : State) : Result :=
  macWhen "MAC.ERR" (!modeRm s.mac.mode) s (setStatus b.bit s)

end Sys2Proof.Machine
end

