-- ==== Sys2Proof/Machine/PowerOn.lean ====
section
/-!
DEFINITION. RESET, the power-on event (70_reset_and_hazards.md R290, R291), with DEC.NEW (41_decoder.md R140).
-/

namespace Sys2Proof.Machine

/-- The MAC at power-on: every register and the FIFO a free value, at most `RXFIFO_MSGS` messages (R291,
U10, U11; log 9). -/
def freeMac (draw limit : Nat) : Mac where
  mode := Config.freeMacByte draw 0
  ier := Config.freeMacByte draw 4
  isr := Config.freeMacByte draw 3
  btr0 := Config.freeMacByte draw 6
  btr1 := Config.freeMacByte draw 7
  code := Config.freeMacWord draw 0
  mask := Config.freeMacWord draw 1
  rxq := (Config.freeRxq draw).take limit

/-- DEC.NEW's check (R140, with N as R49 and U1 add it; log 18). -/
def checkConfig (s : State) : State := if s.cfg.wf then s else raise .fatalConfig [] s

/-- RESET's step: RXC's own state as R291 gives it, the MAC and the slots unspecified, the outside's inputs
as they stand. -/
def powerOn (s : State) : State :=
  checkConfig
    { State.resetWith s.cfg with
      faultCfg := false
      slots := (List.range s.cfg.n).map (Config.freeSlot s.draws)
      mac := freeMac s.draws s.cfg.rxfifoMsgs
      agenda := s.agenda
      resetAcks := s.resetAcks
      draws := s.draws + 1 }

/-- `RESET` (R290): once, before any other step. -/
def execReset (s : State) : Result :=
  if s.powered then .refused .alreadyReset else .next (powerOn s)

end Sys2Proof.Machine
end

