-- ==== Sys2Proof/Machine/Queue.lean ====
section
/-!
DEFINITION. The queue's internal functions as rows of their own, and the two synchronisers
(42_frame_queue.md).
-/

namespace Sys2Proof.Machine

/-- `TRY_PUSH(f)` (R173), as a row of its own (log 24): while the queue exists. -/
def execTryPush (f : Frame) (s : State) : Result :=
  stepWhen "TRY_PUSH" s.qAlloc s (setRet (.bool (tryPush f s).1) (tryPush f s).2)

/-- `TRY_POP` (R174), as a row of its own (log 24): while the queue exists. -/
def execTryPop (s : State) : Result :=
  stepWhen "TRY_POP" s.qAlloc s (setRet (.frame (tryPop s).1) (tryPop s).2)

/-- `SYNC_W` (R175): the write pointer crosses to the consumer side. -/
def execSyncW (s : State) : Result :=
  stepWhen "SYNC_W" s.qAlloc s { s with wptrGs := gray s.wptr }

/-- `SYNC_R` (R176): the read pointer crosses to the producer side. -/
def execSyncR (s : State) : Result :=
  stepWhen "SYNC_R" s.qAlloc s { s with rptrGs := gray s.rptr }

end Sys2Proof.Machine
end

