-- ==== Sys2Proof/Machine/Dispatch.lean ====
section
/-!
DEFINITION. The dispatcher: one arm per row of spec/opcode_table.json, each a direct call of its meaning.
-/

namespace Sys2Proof.Machine

def exec (i : Instr) (s : State) : Host.Outcome State Fault Refusal :=
  match i with
  | .install => Sys2Proof.Machine.execInstall s
  | .start => Sys2Proof.Machine.execStart s
  | .stop => Sys2Proof.Machine.execStop s
  | .uninstall => Sys2Proof.Machine.execUninstall s
  | .recv => Sys2Proof.Machine.execRecv s
  | .depth => Sys2Proof.Machine.execDepth s
  | .canDecode id => Sys2Proof.Machine.execCanDecode id s
  | .snapshot sel => Sys2Proof.Machine.execSnapshot sel s
  | .command b => Sys2Proof.Machine.execCommand b s
  | .denyAll => Sys2Proof.Machine.execDenyAll s
  | .allowAll => Sys2Proof.Machine.execAllowAll s
  | .allowId id => Sys2Proof.Machine.execAllowId id s
  | .hostopReserved low => Sys2Proof.Machine.execHostopReserved low s
  | .cmdDenyAll => Sys2Proof.Machine.execCmdDenyAll s
  | .cmdAllowAll interval => Sys2Proof.Machine.execCmdAllowAll interval s
  | .cmdAllowId interval id => Sys2Proof.Machine.execCmdAllowId interval id s
  | .cmdInvalid b => Sys2Proof.Machine.execCmdInvalid b s
  | .drEntryRx => Sys2Proof.Machine.execDrEntryRx s
  | .drEntryErr => Sys2Proof.Machine.execDrEntryErr s
  | .drEntryNone => Sys2Proof.Machine.execDrEntryNone s
  | .drCount => Sys2Proof.Machine.execDrCount s
  | .drMsgRtr => Sys2Proof.Machine.execDrMsgRtr s
  | .drMsgExt => Sys2Proof.Machine.execDrMsgExt s
  | .drMsgStd => Sys2Proof.Machine.execDrMsgStd s
  | .drExit => Sys2Proof.Machine.execDrExit s
  | .sweepStep => Sys2Proof.Machine.execSweepStep s
  | .shouldDecode id => Sys2Proof.Machine.execShouldDecode id s
  | .captureClass c => Sys2Proof.Machine.execCaptureClass c s
  | .tryPush f => Sys2Proof.Machine.execTryPush f s
  | .tryPop => Sys2Proof.Machine.execTryPop s
  | .syncW => Sys2Proof.Machine.execSyncW s
  | .syncR => Sys2Proof.Machine.execSyncR s
  | .macRx m => Sys2Proof.Machine.execMacRx m s
  | .macErr b => Sys2Proof.Machine.execMacErr b s
  | .reset => Sys2Proof.Machine.execReset s

end Sys2Proof.Machine
end

