-- ==== Sys2Proof/Machine/Fetch.lean ====
section
/-!
DEFINITION. Which instruction runs next: the agent whose turn it is (00_scope.md R7; log 1, log 2), and what
that agent does in the state it finds (60_exceptions.md section 3, 43_controller.md R207).
-/

namespace Sys2Proof.Machine

/-- What a turn comes to. -/
inductive Fetched where
  /-- This instruction runs, from this state. -/
  | run (i : Instr) (s : State)
  /-- The agent has no enabled step: the turn passes (R10; log 19). -/
  | pass (s : State)
  /-- The bytes on the host port are no operation (log 4). -/
  | reject (e : DecodeError)
  /-- The block is stopped for good (R49). -/
  | stuck (f : Fault)
  deriving DecidableEq, Repr

/-- The drainer's enabled step, if there is one, selected by the phase and by the patterns of R97 and R98
(R243, R245, R246, R263). -/
def drainerInstr (s : State) : Option Instr :=
  match s.drPhase with
  | .idle => if entryReady s then some (decodeIsr s.mac.isr) else none
  | .count => some .drCount
  | .drain => if s.drRemaining = 0 then some .drExit else some (decodeRxctrl (window s)[0])

/-- The instruction of a held operation (R72). -/
def heldInstr (op : HeldOp) : Instr :=
  match op with
  | .install => .install
  | .start => .start
  | .uninstall => .uninstall

/-- The host's own unfinished operation, where it can go on: the next sweep step (R147), or the held
operation once the critical section is free (R72). -/
def hostOwn (s : State) : Option Fetched :=
  if s.swKind ≠ .none then some (.run .sweepStep s)
  else
    match s.hostHeld with
    | none => none
    | some op => if csHeld s then none else some (.run (heldInstr op) { s with hostHeld := none })

/-- A turn of one of RXC's own agents: nothing before RESET, nothing after a fatal configuration (R49). -/
def ownTurn (s : State) (f : Fetched) : Fetched :=
  if !s.powered then .pass s else if s.faultCfg then .stuck .fatalConfig else f

/-- A drainer turn. -/
def drainerTurn (s : State) : Fetched :=
  match drainerInstr s with
  | some i => .run i s
  | none => .pass s

/-- No turn is listed (log 2): the drainer first, then the host's unfinished operation, then a synchroniser
whose copy is stale; else nothing moves. -/
def autonomous (s : State) : Fetched :=
  match drainerInstr s with
  | some i => .run i s
  | none =>
    match hostOwn s with
    | some f => f
    | none =>
      if s.qAlloc && s.wptrGs != gray s.wptr then .run .syncW s
      else if s.qAlloc && s.rptrGs != gray s.rptr then .run .syncR s
      else .pass s

/-- A host operation is issued. While the host is inside another one the issue waits: `busy`, the state with
the turn still listed, gives the host its own next step, or the drainer the step that frees it (R72, R207). -/
def hostTurn (bytes : List Byte) (busy s : State) : Fetched :=
  if hostBusy busy then
    match hostOwn busy with
    | some f => f
    | none => drainerTurn busy
  else
    match decode .hostop bytes with
    | .ok i => .run i s
    | .reject e => .reject e

/-- The next turn of the schedule. -/
def fetch (s : State) : Fetched :=
  match s.agenda with
  | [] => ownTurn s (autonomous s)
  | t :: l =>
    let s' := { s with agenda := l }
    match t with
    | .host bytes => hostTurn bytes s s'
    | .hostOwn => ownTurn s' ((hostOwn s').getD (.pass s'))
    | .drainer => ownTurn s' (drainerTurn s')
    | .syncW => ownTurn s' (if s'.qAlloc then .run .syncW s' else .pass s')
    | .syncR => ownTurn s' (if s'.qAlloc then .run .syncR s' else .pass s')
    | .macRx m => if s'.powered && !modeRm s'.mac.mode then .run (.macRx m) s' else .pass s'
    | .macErr b => if s'.powered && !modeRm s'.mac.mode then .run (.macErr b) s' else .pass s'
    | .powerOn => .run .reset s'

/-- Turn to the table's word: a host operation on the host port, or a message whose control byte the drainer
is about to read (log 3). -/
def placeWord (f : Format) (bytes : List Byte) (s : State) : State :=
  match f with
  | .hostop => { s with agenda := .host bytes :: s.agenda, swKind := .none, hostHeld := none }
  | .rcmd => { s with agenda := .host (0x08 :: bytes) :: s.agenda, swKind := .none, hostHeld := none }
  | .isr =>
    { s with
      agenda := .drainer :: s.agenda, drPhase := .idle
      mac := { s.mac with isr := bytes.headD 0 } }
  | .rxctrl =>
    { s with
      agenda := .drainer :: s.agenda, drPhase := .drain, drRemaining := 1
      mac := { s.mac with rxq := (Vector.replicate 13 0).set 0 (bytes.headD 0) :: s.mac.rxq } }

end Sys2Proof.Machine
end

