-- ==== Sys2Proof/Machine/Step.lean ====
section
/-!
DEFINITION. One step of the machine: the fetched instruction runs, or the turn passes.
-/

namespace Sys2Proof.Machine

/-- One step: `fetch` says which instruction runs and from which state; `exec` runs it. -/
def step (s : State) : Host.Outcome State Fault Refusal :=
  match fetch s with
  | .run i s' => exec i s'
  | .pass s' => .next s'
  | .reject e => .refused (.undecodable e)
  | .stuck f => .fault f

/-- The state whose next step runs the instruction a word of the opcode table stands for (log 3). -/
def State.withFetchWord (s : State) (nbits w : Nat) : State :=
  placeWord (tableBytes nbits w).1 (tableBytes nbits w).2 s

end Sys2Proof.Machine
end

