-- ==== Sys2Proof/Safety.lean ====
section
/-!
DEFINITION. What counts as a safe state of RXC: the invariants the spec's rules state or imply, and the
words the claims are made in (repeated operations, the queue's contents, progress measures).
-/

namespace Sys2Proof.Machine

/-! ### When an operation may run -/

/-- RESET has happened and the configuration is sound (R290, R49). -/
def rxcReady (s : State) : Bool := s.powered && !s.faultCfg

/-- The host may issue an operation (R46, R207). -/
def hostReady (s : State) : Bool := rxcReady s && !hostBusy s

/-! ### Invariants -/

/-- R24, R157: the table's identifiers and defaults are the profile's; a rate is 0 or the default; a count
is below the default (or 0). -/
def TableInv (s : State) : Prop :=
  s.tab.map (fun e => (e.id, e.dflt)) = s.cfg.profile.map (fun e => (e.id, e.dflt.toNat)) ∧
    ∀ e ∈ s.tab, (e.rate = 0 ∨ e.rate = e.dflt) ∧ e.count < max e.dflt 1

/-- R178: while the queue exists its pointers are in range; what the producer has not yet seen popped and
what is unpopped fit the storage together; the consumer sees no more than was pushed. The first sum is
the form of R178 (a), (b) that a step keeps: the two bounds of (b) alone also hold with both terms `N`. -/
def QueueInv (s : State) : Prop :=
  storageWf s = true ∧
    (s.qAlloc = true →
      s.wptr < ptrMod s ∧ s.rptr < ptrMod s ∧ s.wptrGs < ptrMod s ∧ s.rptrGs < ptrMod s ∧
        subMod s.rptr (rSeen s) (ptrMod s) + occ s ≤ s.cfg.n ∧
        subMod (wSeen s) s.rptr (ptrMod s) ≤ occ s)

/-- R21, R28, R36, R201, R202, R204, R258: what the lifecycle says of the queue, the mode, the enable mask,
the status and the drainer. -/
def LifeInv (s : State) : Prop :=
  s.qAlloc = handlerInstalled s ∧
    (s.running = true ↔ s.life = .running ∨ s.life = .stopped) ∧
    (s.life ≠ .uninstalled → s.mac.ier = enInstall ∧ s.mac.isr &&& 0x1A = 0) ∧
    (s.life = .installed → modeRm s.mac.mode = true ∧ s.mac.isr = 0) ∧
    (s.life = .running ∨ s.life = .stopped → modeRm s.mac.mode = false) ∧
    (csHeld s = true → s.life = .running ∨ s.life = .stopped)

/-- R245's derived bound, R39: the messages still to handle are in the FIFO, and the FIFO keeps its bound. -/
def DrainInv (s : State) : Prop :=
  (s.drPhase = .drain → s.drRemaining.toNat ≤ s.mac.rxq.length) ∧
    s.mac.rxq.length ≤ s.cfg.rxfifoMsgs

/-- R46: a sweep in progress names an entry, and the host is in one operation at a time (R207). -/
def SweepInv (s : State) : Prop :=
  (s.swKind ≠ .none → s.swK < s.tab.length) ∧ (s.hostHeld.isSome = true → s.swKind = .none)

/-- R49: the fault bit says, once RESET has happened, whether the configuration is ill-formed. -/
def FaultInv (s : State) : Prop := s.powered = true → s.faultCfg = !s.cfg.wf

/-- The queue's contents, oldest first (R178 d). -/
def contents (s : State) : List Frame :=
  (List.range (occ s)).map fun j => readSlot s ((s.rptr + j) % s.cfg.n)

/-- R132: every queued frame meets the Frame invariants, and every string handed to the sink is the 13
bytes of such a frame. -/
def FrameInv (s : State) : Prop :=
  (s.qAlloc = true → ∀ f ∈ contents s, frameOk f = true) ∧
    ∀ b ∈ s.sink, ∃ f, frameOk f = true ∧ b = frameBytes f

/-! ### Contexts (R240) -/

/-- The rows the interrupt context runs (R7, R109). -/
def drainerRow (i : Instr) : Bool :=
  match i with
  | .drEntryRx | .drEntryErr | .drEntryNone | .drCount | .drMsgRtr | .drMsgExt | .drMsgStd | .drExit => true
  | _ => false

/-- The rows the task context runs: the host operations, the remote commands and the sweep (R7, R109). -/
def hostRow (i : Instr) : Bool :=
  match i with
  | .install | .start | .stop | .uninstall | .recv | .depth | .canDecode _ | .snapshot _ | .command _
  | .denyAll | .allowAll | .allowId _ | .hostopReserved _ | .cmdDenyAll | .cmdAllowAll _
  | .cmdAllowId _ _ | .cmdInvalid _ | .sweepStep => true
  | _ => false

/-- The three host operations that touch the MAC's configuration registers (R72, R240). -/
def configRow (i : Instr) : Bool :=
  match i with
  | .install | .start | .uninstall => true
  | _ => false

/-! ### Repeated operations -/

/-- `SHOULD_DECODE(id)` called `k` times in a row (R156): the answers in order, and the table afterwards. -/
def admitMany (id : Word32) : Nat → List Entry → List Bool × List Entry
  | 0, tab => ([], tab)
  | k + 1, tab =>
    ((admission tab id).1 :: (admitMany id k (admission tab id).2).1,
      (admitMany id k (admission tab id).2).2)

/-- The sweep run for `k` steps (R147). -/
def sweepMany : Nat → State → State
  | 0, s => s
  | k + 1, s => sweepMany k (sweepOne s)

/-- TRY_PUSH of each frame in turn (R181): the answers, and the state afterwards. -/
def pushAll : List Frame → State → List Bool × State
  | [], s => ([], s)
  | f :: l, s => ((tryPush f s).1 :: (pushAll l (tryPush f s).2).1, (pushAll l (tryPush f s).2).2)

/-- TRY_POP `k` times (R181): the answers, and the state afterwards. -/
def popMany : Nat → State → List (Option Frame) × State
  | 0, s => ([], s)
  | k + 1, s => ((tryPop s).1 :: (popMany k (tryPop s).2).1, (popMany k (tryPop s).2).2)

/-- The drainer steps left in this invocation (R247). -/
def drainSteps (s : State) : Nat :=
  match s.drPhase with
  | .idle => 0
  | .count => (BitVec.ofNat 8 s.mac.rxq.length).toNat + 2
  | .drain => s.drRemaining.toNat + 1

/-- A bound on the steps to quiescence when the MAC and the host do nothing (R305): this invocation, one
more for the pending status, the sweep's rest, two synchroniser steps. -/
def settleSteps (s : State) : Nat := drainSteps s + (s.mac.rxq.length + 3) + (s.tab.length - s.swK) + 2

end Sys2Proof.Machine
end

