-- ==== Sys2Proof/Certificates/Slice0/Obligations.lean ====
section
/-!
DEFINITION. The statements for the provers. Each docstring names the rules of spec/ it formalises. A next
state written as a record update says the frame with it: every field not named is unchanged. The field `ret`
holds what an operation returned to its caller (R32 d); that the state records it is the model's choice
(log 13).
-/

open Sys2Proof Sys2Proof.Machine

/-! ### Encodings -/

/-- R95, R97, R98, R104: decoding an encoded well-formed instruction gives it back. The byte form of a host
operation's operands is the model's choice (log 4). -/
def Obligations.DecodeOfEncodeIsIdentity : Prop :=
  ∀ (i : Instr) (f : Format) (bytes : List Byte),
    i.wellFormed = true → encode i = some (f, bytes) → decode f bytes = .ok i

/-- R95, R96, R106: the three legal commands with their immediates, and every other byte string is
CMD.INVALID. -/
def Obligations.RemoteCommandForms : Prop :=
  decodeRcmd [0x00] = .cmdDenyAll ∧
    (∀ hi lo : Byte,
      decodeRcmd [0x01, hi, lo] = .cmdAllowAll ((hi.setWidth 16 <<< 8) ||| lo.setWidth 16)) ∧
    (∀ hi lo b3 b2 b1 b0 : Byte,
      decodeRcmd [0x02, hi, lo, b3, b2, b1, b0] =
        .cmdAllowId ((hi.setWidth 16 <<< 8) ||| lo.setWidth 16)
          ((b3.setWidth 32 <<< 24) ||| (b2.setWidth 32 <<< 16) ||| (b1.setWidth 32 <<< 8) |||
            b0.setWidth 32)) ∧
    ∀ b : List Byte,
      (∀ c l, b = c :: l →
        ¬(c = 0x00 ∧ l.length = 0) ∧ ¬(c = 0x01 ∧ l.length = 2) ∧ ¬(c = 0x02 ∧ l.length = 6)) →
      decodeRcmd b = .cmdInvalid b

/-- R97: the status value's branch by R97's masks; the masked bits 1, 3, 4 select nothing. -/
def Obligations.StatusSelectsBranch : Prop :=
  ∀ v : Byte,
    (v &&& 0x01 = 0x01 → decodeIsr v = .drEntryRx) ∧
      (v &&& 0x01 = 0x00 ∧ v &&& 0xE4 ≠ 0 → decodeIsr v = .drEntryErr) ∧
      (v &&& 0xE5 = 0x00 → decodeIsr v = .drEntryNone) ∧
      decodeIsr (v &&& 0xE5) = decodeIsr v

/-- R98, R130: the control byte's branch by R98's masks, its class by R130's tests, which agree; bits 5:0
enter neither; CAPTURE.CLASS hands back the class and changes nothing else. -/
def Obligations.ControlByteSelectsBranch : Prop :=
  ∀ (c : Byte) (s : State),
    (c &&& 0x40 = 0x40 → decodeRxctrl c = .drMsgRtr ∧ captureClass c = .remote) ∧
      (c &&& 0xC0 = 0x80 → decodeRxctrl c = .drMsgExt ∧ captureClass c = .extended) ∧
      (c &&& 0xC0 = 0x00 → decodeRxctrl c = .drMsgStd ∧ captureClass c = .standardData) ∧
      decodeRxctrl (c &&& 0xC0) = decodeRxctrl c ∧
      (rxcReady s = true →
        exec (.captureClass c) s =
          .next { s with
            ret := .captured
              (if c.getLsbD 6 then .remote else if c.getLsbD 7 then .extended else .standardData) })

/-- R95, R97, R98, R104, R105: words written out from the encoding tables decode to what they stand for.
The order of a host operation's operand bytes is the model's choice (log 4). -/
def Obligations.WrittenWordsDecode : Prop :=
  decode .hostop [0x00] = .ok .install ∧ decode .hostop [0x01] = .ok .start ∧
    decode .hostop [0x02] = .ok .stop ∧ decode .hostop [0x03] = .ok .uninstall ∧
    decode .hostop [0x04] = .ok .recv ∧ decode .hostop [0x05] = .ok .depth ∧
    decode .hostop [0x06, 0xA5, 0x00, 0x00, 0x00] = .ok (.canDecode 0xA5) ∧
    decode .hostop [0x07, 0x02] = .ok (.snapshot .admitted) ∧
    decode .hostop [0x08, 0x00] = .ok (.command [0x00]) ∧
    decode .hostop [0x09] = .ok .denyAll ∧ decode .hostop [0x0A] = .ok .allowAll ∧
    decode .hostop [0x0B, 0xE8, 0x03, 0x00, 0x00] = .ok (.allowId 0x3E8) ∧
    decode .hostop [0x0C] = .ok (.hostopReserved 0) ∧ decode .hostop [0x0F] = .ok (.hostopReserved 3) ∧
    decode .rcmd [0x02, 0x12, 0x34, 0x00, 0x00, 0x03, 0xE8] = .ok (.cmdAllowId 0x1234 0x3E8) ∧
    decode .isr [0x60] = .ok .drEntryErr ∧ decode .isr [0xE5] = .ok .drEntryRx ∧
    decode .rxctrl [0x48] = .ok .drMsgRtr ∧ decode .rxctrl [0x81] = .ok .drMsgExt

/-- R42: the register map's indices name their registers in the mode the map gives; the indices RXC does
not use name none. -/
def Obligations.RegisterMapIsR42 : Prop :=
  (∀ cm : Bool, regAt cm 0 = some .mode ∧ regAt cm 1 = some .cmd ∧ regAt cm 3 = some .isr ∧
      regAt cm 4 = some .ier ∧ regAt cm 29 = some .rmc) ∧
    regAt true 6 = some .btr0 ∧ regAt true 7 = some .btr1 ∧
    (∀ i : Fin 4, regAt true (16 + i.val) = some (.acr i) ∧ regAt true (20 + i.val) = some (.amr i)) ∧
    (∀ i : Fin 13, regAt false (16 + i.val) = some (.rxbuf i)) ∧
    ∀ (cm : Bool) (k : Nat),
      k = 2 ∨ k = 5 ∨ (8 ≤ k ∧ k < 16) ∨ 30 ≤ k ∨ (cm = true ∧ 24 ≤ k ∧ k < 29) → regAt cm k = none

/-! ### Steps -/

/-- R7, R104, R207: a host turn runs the decoded operation with the turn taken off the schedule; bytes that
are no host operation stop by name. The schedule itself is the model's choice (log 1, log 4). -/
def Obligations.StepRunsHostOperation : Prop :=
  ∀ (s : State) (bytes : List Byte) (l : List Turn),
    s.agenda = .host bytes :: l → hostBusy s = false →
      (∀ i, decode .hostop bytes = .ok i → step s = exec i { s with agenda := l }) ∧
        ∀ e, decode .hostop bytes = .reject e → step s = .refused (.undecodable e)

/-- R243, R245, R246, R263, R10: a drainer turn runs the one step the phase, the status or the control byte
enables; a drainer with nothing to do lets the turn pass. The schedule and the passing are the model's choice
(log 1, log 19). -/
def Obligations.StepRunsDrainer : Prop :=
  ∀ (s : State) (l : List Turn),
    s.agenda = .drainer :: l → rxcReady s = true →
      (s.drPhase = .idle → entryReady s = true →
        step s = exec (decodeIsr s.mac.isr) { s with agenda := l }) ∧
      (s.drPhase = .idle → entryReady s = false → step s = .next { s with agenda := l }) ∧
      (s.drPhase = .count → step s = exec .drCount { s with agenda := l }) ∧
      (s.drPhase = .drain → s.drRemaining = 0 → step s = exec .drExit { s with agenda := l }) ∧
      (s.drPhase = .drain → s.drRemaining ≠ 0 →
        step s = exec (decodeRxctrl (window s)[0]) { s with agenda := l })

/-- R175, R176, R254, R255, R256, R147, R72, R290: the turns of the synchronisers, the MAC, the host's own
unfinished work and the power-on event. A synchroniser, the MAC or the host's own work runs its step when it is
enabled, and the turn passes when it is not: the host's work is the next sweep step, else the held operation once
the critical section is free, else nothing. Before RESET these turns pass, and the MAC does not read the fault
bit. The power-on turn runs RESET in every state. The schedule, the passing, and that a second RESET is refused
(ResetEffect) are the model's choice (log 1, log 19, log 17). -/
def Obligations.StepRunsOtherAgents : Prop :=
  ∀ (s : State) (t : Turn) (l : List Turn), s.agenda = t :: l →
    (t = .powerOn → step s = exec .reset { s with agenda := l }) ∧
    (s.powered = false → t = .syncW ∨ t = .syncR ∨ t = .hostOwn ∨ t = .drainer →
      step s = .next { s with agenda := l }) ∧
    (∀ m, t = .macRx m → step s =
      if s.powered = true ∧ modeRm s.mac.mode = false then exec (.macRx m) { s with agenda := l }
      else .next { s with agenda := l }) ∧
    (∀ b, t = .macErr b → step s =
      if s.powered = true ∧ modeRm s.mac.mode = false then exec (.macErr b) { s with agenda := l }
      else .next { s with agenda := l }) ∧
    (rxcReady s = true →
      (t = .syncW → step s =
        if s.qAlloc then exec .syncW { s with agenda := l } else .next { s with agenda := l }) ∧
      (t = .syncR → step s =
        if s.qAlloc then exec .syncR { s with agenda := l } else .next { s with agenda := l }) ∧
      (t = .hostOwn →
        (s.swKind ≠ .none → step s = exec .sweepStep { s with agenda := l }) ∧
        (s.swKind = .none → s.hostHeld = none → step s = .next { s with agenda := l }) ∧
        (∀ op, s.swKind = .none → s.hostHeld = some op → step s =
          if csHeld s then .next { s with agenda := l }
          else exec (heldInstr op) { s with agenda := l, hostHeld := none })))

/-- R46, R72, R207: while the host is inside an operation a newly issued one waits, still listed: the host
takes its next sweep step, or its held operation once the drainer has left the critical section, and until
then the drainer takes the step that leads there. That an issued operation stays listed, and which step comes
first, is the model's choice (log 1, log 15). -/
def Obligations.HostFinishesFirst : Prop :=
  ∀ (s : State) (bytes : List Byte) (l : List Turn),
    s.agenda = .host bytes :: l →
      (s.swKind ≠ .none → step s = exec .sweepStep s) ∧
      (∀ op, s.swKind = .none → s.hostHeld = some op → csHeld s = false →
        step s = exec (heldInstr op) { s with hostHeld := none }) ∧
      (∀ op i, s.swKind = .none → s.hostHeld = some op → csHeld s = true → drainerInstr s = some i →
        step s = exec i s)

/-- R49, R10: with the fault bit set every operation of the host, the drainer and the synchronisers ends in
the fault, and so does every turn of theirs, the host's included whenever the bytes it issues are an operation
that is not reserved. That the stopped block's next step is a fault, rather than no step, is the model's reading
(log 18). -/
def Obligations.FatalConfigStops : Prop :=
  ∀ s : State, s.powered = true → s.faultCfg = true →
    (∀ i : Instr, (∀ low, i ≠ .hostopReserved low) → (∀ m, i ≠ .macRx m) → (∀ b, i ≠ .macErr b) →
      i ≠ .reset → exec i s = .fault .fatalConfig) ∧
    (s.agenda = [] → step s = .fault .fatalConfig) ∧
    (∀ l, s.agenda = .drainer :: l ∨ s.agenda = .syncW :: l ∨ s.agenda = .syncR :: l ∨
        s.agenda = .hostOwn :: l → step s = .fault .fatalConfig) ∧
    ∀ bytes l i, s.agenda = .host bytes :: l → decode .hostop bytes = .ok i →
      (∀ low, i ≠ .hostopReserved low) → step s = .fault .fatalConfig

/-- R208, R105 d: the refusing pairs of R208. -/
def Obligations.RefusedOperations : Prop :=
  ∀ s : State,
    (hostReady s = true →
      (s.life ≠ .uninstalled → exec .install s = .refused (.wrongState "INSTALL")) ∧
      (s.life ≠ .installed → s.life ≠ .stopped → exec .start s = .refused (.wrongState "START")) ∧
      (s.life ≠ .running → exec .stop s = .refused (.wrongState "STOP")) ∧
      (s.life = .uninstalled → exec .uninstall s = .refused (.wrongState "UNINSTALL")) ∧
      (s.qAlloc = false → exec .recv s = .refused (.wrongState "RECV") ∧
        exec .depth s = .refused (.wrongState "DEPTH"))) ∧
    ∀ low, exec (.hostopReserved low) s = .refused (.reservedSelect (3#2 ++ low))

/-! ### Lifecycle -/

/-- R201, R256, R36, R37, R38: INSTALL when the MAC enters configuration mode. The draw of `RESET_ACK` may
come from the environment's list or be free (log 7). `mac.mode` is the byte written; what a read of it shows
in the reserved bits is free (log 31). -/
def Obligations.InstallConfigures : Prop :=
  ∀ s : State, hostReady s = true → s.life = .uninstalled → csHeld s = false →
    (drawAck s).1 = true →
      exec .install s = .next { (drawAck s).2 with
        qAlloc := true, wptr := 0, rptr := 0, wptrGs := 0, rptrGs := 0
        mac := {
          mode := modeByte true s.cfg.filter.single
          ier := 0xE5
          isr := 0
          btr0 := s.cfg.timing.sjw ++ s.cfg.timing.brp
          btr1 := BitVec.ofBool s.cfg.timing.sam ++ s.cfg.timing.tseg2 ++ s.cfg.timing.tseg1
          code := s.cfg.filter.code
          mask := s.cfg.filter.mask
          rxq := if s.cfg.macResetFlush then [] else s.mac.rxq }
        rxpinFloating := true, running := false, life := .installed, ret := .bool true }

/-- R201, R256, R248 X2: INSTALL when the MAC declines: it returns false, `life` stays `Uninstalled`, the
queue does not exist, `RM` reads 0 and nothing else of RXC or the MAC changes. What the other mode bits
read is left free (log 8), the pointers are those Q.ALLOC wrote (log 23). -/
def Obligations.InstallFails : Prop :=
  ∀ s : State, hostReady s = true → s.life = .uninstalled → csHeld s = false →
    (drawAck s).1 = false →
      ∃ m : Byte, modeRm m = false ∧
        exec .install s = .next { (drawAck s).2 with
          qAlloc := false, wptr := 0, rptr := 0, wptrGs := 0, rptrGs := 0
          mac := { s.mac with mode := m }
          draws := (drawAck s).2.draws + 1, ret := .bool false }

/-- R202, R172: START from `Installed` or `Stopped` clears the queue and the status, releases the MAC with
`AFM` unchanged and starts; the slots, the counters and the MAC's FIFO keep what they held. `mac.mode` is the
byte written; what a read of it shows in the reserved bits is free (log 31). -/
def Obligations.StartEffect : Prop :=
  ∀ s : State, hostReady s = true → s.life = .installed ∨ s.life = .stopped → csHeld s = false →
    exec .start s = .next { s with
      wptr := 0, rptr := 0, wptrGs := 0, rptrGs := 0
      mac := { s.mac with isr := 0, mode := s.mac.mode &&& 0x08 }
      running := true, life := .running, ret := .unit }

/-- R203: STOP from `Running` moves `life` to `Stopped` and changes nothing else, in or out of the critical
section; from any other state it is refused. -/
def Obligations.StopEffect : Prop :=
  ∀ s : State, hostReady s = true →
    exec .stop s =
      if s.life = .running then .next { s with life := .stopped, ret := .unit }
      else .refused (.wrongState "STOP")

/-- R204, R171: UNINSTALL masks every source, clears the status, frees the queue and returns to
`Uninstalled`; `MAC.MODE` and the MAC's FIFO stay. -/
def Obligations.UninstallEffect : Prop :=
  ∀ s : State, hostReady s = true → s.life ≠ .uninstalled → csHeld s = false →
    exec .uninstall s = .next { s with
      mac := { s.mac with ier := 0, isr := 0 }
      qAlloc := false, running := false, life := .uninstalled, ret := .unit }

/-- R72, R207, R46: while the drainer is inside an invocation the three lifecycle operations are held: nothing
changes but that the host waits. While the host is held, or inside a sweep, no host operation and no remote
command runs. How the hold is held, and that an operation run against a busy host is refused, is the model's
choice (log 15, log 16). -/
def Obligations.CriticalSectionHolds : Prop :=
  ∀ s : State,
    (csHeld s = true → hostReady s = true →
      (s.life = .uninstalled → exec .install s = .next { s with hostHeld := some .install }) ∧
      (s.life = .installed ∨ s.life = .stopped →
        exec .start s = .next { s with hostHeld := some .start }) ∧
      (s.life ≠ .uninstalled → exec .uninstall s = .next { s with hostHeld := some .uninstall })) ∧
    (rxcReady s = true → s.hostHeld.isSome = true ∨ s.swKind ≠ .none →
      ∀ i : Instr, hostRow i = true → i ≠ .sweepStep → (∀ low, i ≠ .hostopReserved low) →
        ∃ mnemonic, exec i s = .refused (.hostBusy mnemonic))

/-! ### Polling and diagnostics -/

/-- R205, R174: RECV pops at most one frame, hands its 13 bytes to the sink and counts it; with nothing
visible it returns none and changes nothing else; without a queue it is refused. -/
def Obligations.RecvEffect : Prop :=
  ∀ s : State, hostReady s = true →
    (s.qAlloc = false → exec .recv s = .refused (.wrongState "RECV")) ∧
    (s.qAlloc = true → s.rptr = ungray s.cfg.pw s.wptrGs →
      exec .recv s = .next { s with ret := .frame none }) ∧
    (s.qAlloc = true → s.rptr ≠ ungray s.cfg.pw s.wptrGs →
      exec .recv s = .next { s with
        rptr := (s.rptr + 1) % (2 * s.cfg.n)
        sink := s.sink ++ [frameBytes (readSlot s (s.rptr % s.cfg.n))]
        cntForwarded := s.cntForwarded + 1
        ret := .frame (some (readSlot s (s.rptr % s.cfg.n))) })

/-- R177: DEPTH returns the occupancy the consumer side sees and changes nothing else; without a queue it is
refused. -/
def Obligations.DepthEffect : Prop :=
  ∀ s : State, hostReady s = true →
    exec .depth s =
      if s.qAlloc then .next { s with ret := .depth (subMod (ungray s.cfg.pw s.wptrGs) s.rptr (2 * s.cfg.n)) }
      else .refused (.wrongState "DEPTH")

/-- R177: the depth is a lower bound of the true occupancy and at most `N`. -/
def Obligations.DepthIsLowerBound : Prop :=
  ∀ s : State, s.cfg.wf = true → QueueInv s → s.qAlloc = true → depth s ≤ occ s ∧ depth s ≤ s.cfg.n

/-- R142: CAN_DECODE answers whether the identifier is in the table, whatever its rate, and changes nothing
else. -/
def Obligations.CanDecodeEffect : Prop :=
  ∀ (s : State) (id : Word32), hostReady s = true → ascending (s.tab.map (·.id)) = true →
    exec (.canDecode id) s = .next { s with ret := .bool (decide (∃ e ∈ s.tab, e.id = id)) }

/-- R206: SNAPSHOT returns one counter and zeroes it, in every value of `life`. -/
def Obligations.SnapshotEffect : Prop :=
  ∀ s : State, hostReady s = true →
    exec (.snapshot .irq) s = .next { s with cntIrq := 0, ret := .count s.cntIrq } ∧
    exec (.snapshot .err) s = .next { s with cntErr := 0, ret := .count s.cntErr } ∧
    exec (.snapshot .admitted) s = .next { s with cntAdmitted := 0, ret := .count s.cntAdmitted } ∧
    exec (.snapshot .forwarded) s = .next { s with cntForwarded := 0, ret := .count s.cntForwarded }

/-! ### The decoder -/

/-- R141: in a sorted table the binary search finds exactly the entry that carries the identifier. -/
def Obligations.LookupFindsTheEntry : Prop :=
  ∀ (tab : List Entry) (id : Word32), ascending (tab.map (·.id)) = true →
    ∀ k, lookup tab id = some k ↔ ∃ e : Entry, tab[k]? = some e ∧ e.id = id

/-- R143: SHOULD_DECODE on an unwatched identifier, a disabled entry, the admitting call and every other
call; only that entry's count changes. -/
def Obligations.ShouldDecodeEffect : Prop :=
  ∀ (s : State) (id : Word32), rxcReady s = true → ascending (s.tab.map (·.id)) = true →
    ((∀ e ∈ s.tab, e.id ≠ id) → exec (.shouldDecode id) s = .next { s with ret := .bool false }) ∧
    ∀ (k : Nat) (e : Entry), s.tab[k]? = some e → e.id = id →
      (e.rate = 0 → exec (.shouldDecode id) s = .next { s with ret := .bool false }) ∧
      (e.rate ≠ 0 → e.rate ≤ e.count + 1 →
        exec (.shouldDecode id) s =
          .next { s with tab := s.tab.set k { e with count := 0 }, ret := .bool true }) ∧
      (e.count + 1 < e.rate →
        exec (.shouldDecode id) s =
          .next { s with tab := s.tab.set k { e with count := e.count + 1 }, ret := .bool false })

/-- R156: the decimation law. A fresh entry with rate `R` answers false `R - 1` times and then true, and is
fresh again, all other entries as they were; a disabled or unwatched identifier always answers false. -/
def Obligations.DecimationLaw : Prop :=
  ∀ (tab : List Entry) (id : Word32), ascending (tab.map (·.id)) = true →
    (∀ (k : Nat) (e : Entry), tab[k]? = some e → e.id = id → e.count = 0 → 0 < e.rate →
      admitMany id e.rate tab = (List.replicate (e.rate - 1) false ++ [true], tab)) ∧
    (∀ (k : Nat) (e : Entry), tab[k]? = some e → e.id = id → e.rate = 0 →
      ∀ n, admitMany id n tab = (List.replicate n false, tab)) ∧
    ((∀ e ∈ tab, e.id ≠ id) → ∀ n, admitMany id n tab = (List.replicate n false, tab))

/-- R144, R145, R152, R153: the table-wide commands start a sweep at entry 0, and do nothing on an empty
table; the interval of command 1 is never read. -/
def Obligations.TableWideCommandsStartSweep : Prop :=
  ∀ (s : State) (iv : BitVec 16), hostReady s = true →
    (s.tab ≠ [] →
      exec .denyAll s = .next { s with swKind := .deny, swK := 0, ret := .unit } ∧
      exec .cmdDenyAll s = .next { s with swKind := .deny, swK := 0, ret := .unit } ∧
      exec .allowAll s = .next { s with swKind := .allow, swK := 0, ret := .unit } ∧
      exec (.cmdAllowAll iv) s = .next { s with swKind := .allow, swK := 0, ret := .unit }) ∧
    (s.tab = [] →
      exec .denyAll s = .next { s with ret := .unit } ∧
      exec .cmdDenyAll s = .next { s with ret := .unit } ∧
      exec .allowAll s = .next { s with ret := .unit } ∧
      exec (.cmdAllowAll iv) s = .next { s with ret := .unit })

/-- R146, R154: ALLOW_ID, issued or carried by command 2, restores one entry's default rate with a fresh
count, and is a no-op on an unwatched identifier; the interval is never read. -/
def Obligations.AllowIdEffect : Prop :=
  ∀ (s : State) (id : Word32) (iv : BitVec 16), hostReady s = true →
    ascending (s.tab.map (·.id)) = true →
      ((∀ e ∈ s.tab, e.id ≠ id) →
        exec (.allowId id) s = .next { s with ret := .unit } ∧
        exec (.cmdAllowId iv id) s = .next { s with ret := .unit }) ∧
      ∀ (k : Nat) (e : Entry), s.tab[k]? = some e → e.id = id →
        exec (.allowId id) s =
          .next { s with tab := s.tab.set k { e with rate := e.dflt, count := 0 }, ret := .unit } ∧
        exec (.cmdAllowId iv id) s =
          .next { s with tab := s.tab.set k { e with rate := e.dflt, count := 0 }, ret := .unit }

/-- R147: one sweep step changes one entry (a deny its rate only, an allow its rate and count), moves to the
next, and ends the sweep after the last; it is enabled exactly while a sweep is in progress. That the step, run
without a sweep, is the refusal `notEnabled` is the model's choice (log 19): R147 says only that it is not
enabled. -/
def Obligations.SweepStepEffect : Prop :=
  ∀ s : State, rxcReady s = true →
    (s.swKind = .none → exec .sweepStep s = .refused (.notEnabled "SWEEP.STEP")) ∧
    ∀ e : Entry, s.tab[s.swK]? = some e →
      (s.swKind = .deny →
        exec .sweepStep s = .next { s with
          tab := s.tab.set s.swK { e with rate := 0 }
          swK := s.swK + 1
          swKind := if s.swK + 1 = s.tab.length then .none else .deny }) ∧
      (s.swKind = .allow →
        exec .sweepStep s = .next { s with
          tab := s.tab.set s.swK { e with rate := e.dflt, count := 0 }
          swK := s.swK + 1
          swKind := if s.swK + 1 = s.tab.length then .none else .allow })

/-- R144, R145: what a whole sweep leaves when no drainer step intervenes: after a deny every rate is 0 and
every count as it was; after an allow every rate is the default and every count 0; `T` steps finish it. -/
def Obligations.SweepOutcome : Prop :=
  ∀ s : State, s.tab ≠ [] → s.swK = 0 →
    (s.swKind = .deny →
      sweepMany s.tab.length s = { s with
        tab := s.tab.map (fun e => { e with rate := 0 }), swK := s.tab.length, swKind := .none }) ∧
    (s.swKind = .allow →
      sweepMany s.tab.length s = { s with
        tab := s.tab.map (fun e => { e with rate := e.dflt, count := 0 })
        swK := s.tab.length, swKind := .none })

/-- R155: an invalid command, issued by COMMAND as bytes that are no legal command or run as the row CMD.INVALID,
appends one `log` event with its first byte (none for the empty command) and its length, and changes nothing
else. -/
def Obligations.BadCommandIsLogged : Prop :=
  ∀ (s : State) (b : List Byte), hostReady s = true →
    exec (.cmdInvalid b) s =
      .next { s with log := s.log ++ [⟨.badCommand, b.head?, b.length⟩], ret := .unit } ∧
    ((∀ c l, b = c :: l →
        ¬(c = 0x00 ∧ l.length = 0) ∧ ¬(c = 0x01 ∧ l.length = 2) ∧ ¬(c = 0x02 ∧ l.length = 6)) →
      exec (.command b) s =
        .next { s with log := s.log ++ [⟨.badCommand, b.head?, b.length⟩], ret := .unit })

/-- R151: COMMAND performs exactly the command its bytes decode to; it always completes, and it touches only
the table, the sweep, the log and the returned value. -/
def Obligations.CommandPerforms : Prop :=
  ∀ (s : State) (b : List Byte),
    exec (.command b) s = exec (decodeRcmd b) s ∧
      (hostReady s = true →
        ∃ t, exec (.command b) s = .next t ∧
          t = { s with tab := t.tab, swKind := t.swKind, swK := t.swK, log := t.log, ret := .unit } ∧
          (legalCommand b = true → t.log = s.log) ∧
          (legalCommand b = false → t.tab = s.tab ∧ t.swKind = s.swKind ∧ t.swK = s.swK))

/-- R70, R159: an admission and a sweep step on different entries commute, so the race is confined to one
entry. -/
def Obligations.RaceIsConfinedToOneEntry : Prop :=
  ∀ (tab : List Entry) (id : Word32) (kind : SweepKind) (i : Nat), lookup tab id ≠ some i →
    admission (sweepTable kind i tab) id = ((admission tab id).1, sweepTable kind i (admission tab id).2)

/-! ### The drainer -/

/-- R243, R244, R35: the three branches of DR.ENTRY. Receive wins, and then no error is counted; several
error bits count one error; every branch counts the interrupt and clears the whole status. -/
def Obligations.EntryEffect : Prop :=
  ∀ s : State, rxcReady s = true → s.life ≠ .uninstalled → s.drPhase = .idle → s.mac.isr ≠ 0 →
    (s.mac.isr &&& 0x01 = 0x01 →
      exec .drEntryRx s = .next { s with
        cntIrq := s.cntIrq + 1, mac := { s.mac with isr := 0 }, drPushed := false
        drPhase := .count }) ∧
    (s.mac.isr &&& 0x01 = 0x00 → s.mac.isr &&& 0xE4 ≠ 0 →
      exec .drEntryErr s = .next { s with
        cntIrq := s.cntIrq + 1, mac := { s.mac with isr := 0 }, drPushed := false
        cntErr := s.cntErr + 1 }) ∧
    (s.mac.isr &&& 0xE5 = 0x00 →
      exec .drEntryNone s = .next { s with
        cntIrq := s.cntIrq + 1, mac := { s.mac with isr := 0 }, drPushed := false })

/-- R263, R40: DR.COUNT loads the message count, read once, and moves to `Drain`. -/
def Obligations.CountEffect : Prop :=
  ∀ s : State, rxcReady s = true → s.drPhase = .count →
    exec .drCount s =
      .next { s with drRemaining := BitVec.ofNat 8 s.mac.rxq.length, drPhase := .drain }

/-- R135, R245, R293: a remote or extended message is released and counted off; no frame is built, no table
count moves, nothing else changes. -/
def Obligations.FilteredMessageIsReleased : Prop :=
  ∀ (s : State) (m : RawMsg) (l : List RawMsg), rxcReady s = true → s.drPhase = .drain →
    s.drRemaining ≠ 0 → s.mac.rxq = m :: l →
      (m[0].getLsbD 6 = true →
        exec .drMsgRtr s =
          .next { s with mac := { s.mac with rxq := l }, drRemaining := s.drRemaining - 1 }) ∧
      (m[0].getLsbD 6 = false → m[0].getLsbD 7 = true →
        exec .drMsgExt s =
          .next { s with mac := { s.mac with rxq := l }, drRemaining := s.drRemaining - 1 })

/-- R245, R143, R173, R248 X4: a standard message. Not admitted: only the admission test and the release.
Admitted with room: pushed, flagged, counted. Admitted with the queue seen full: counted, dropped, nothing
written. Always released. -/
def Obligations.StandardMessageEffect : Prop :=
  ∀ (s : State) (m : RawMsg) (l : List RawMsg), rxcReady s = true → s.drPhase = .drain →
    s.drRemaining ≠ 0 → s.mac.rxq = m :: l → m[0].getLsbD 6 = false → m[0].getLsbD 7 = false →
      ((admission s.tab (msgId m)).1 = false →
        exec .drMsgStd s = .next { s with
          tab := (admission s.tab (msgId m)).2
          mac := { s.mac with rxq := l }, drRemaining := s.drRemaining - 1 }) ∧
      ((admission s.tab (msgId m)).1 = true → s.qAlloc = true → fullP s = false →
        exec .drMsgStd s = .next { s with
          tab := (admission s.tab (msgId m)).2
          slots := s.slots.set (s.wptr % s.cfg.n) (frameBuild m)
          wptr := (s.wptr + 1) % (2 * s.cfg.n)
          drPushed := true, cntAdmitted := s.cntAdmitted + 1
          mac := { s.mac with rxq := l }, drRemaining := s.drRemaining - 1 }) ∧
      ((admission s.tab (msgId m)).1 = true → s.qAlloc = true → fullP s = true →
        exec .drMsgStd s = .next { s with
          tab := (admission s.tab (msgId m)).2
          cntAdmitted := s.cntAdmitted + 1
          mac := { s.mac with rxq := l }, drRemaining := s.drRemaining - 1 })

/-- R246: DR.EXIT frees the critical section and signals a reschedule exactly when some push of the
invocation succeeded. -/
def Obligations.ExitEffect : Prop :=
  ∀ s : State, rxcReady s = true → s.drPhase = .drain → s.drRemaining = 0 →
    exec .drExit s = .next { s with
      drPhase := .idle, resched := if s.drPushed = true then s.resched + 1 else s.resched }

/-- R247, R297: inside an invocation the drainer's turn always completes, whatever the other agents did, and
brings the end one step nearer. The schedule is the model's choice (log 1). -/
def Obligations.InvocationProgress : Prop :=
  ∀ (s : State) (l : List Turn), rxcReady s = true → s.qAlloc = true → s.agenda = .drainer :: l →
    csHeld s = true → ∃ t, step s = .next t ∧ drainSteps t + 1 = drainSteps s

/-! ### The queue -/

/-- R173, R174: TRY_PUSH writes the slot and advances, or drops the frame when the producer sees the queue
full; TRY_POP returns the oldest frame and advances, or nothing. -/
def Obligations.QueueRowsEffect : Prop :=
  ∀ (s : State) (f : Frame), rxcReady s = true → s.qAlloc = true →
    (subMod s.wptr (ungray s.cfg.pw s.rptrGs) (2 * s.cfg.n) = s.cfg.n →
      exec (.tryPush f) s = .next { s with ret := .bool false }) ∧
    (subMod s.wptr (ungray s.cfg.pw s.rptrGs) (2 * s.cfg.n) ≠ s.cfg.n →
      exec (.tryPush f) s = .next { s with
        slots := s.slots.set (s.wptr % s.cfg.n) f
        wptr := (s.wptr + 1) % (2 * s.cfg.n), ret := .bool true }) ∧
    (s.rptr = ungray s.cfg.pw s.wptrGs → exec .tryPop s = .next { s with ret := .frame none }) ∧
    (s.rptr ≠ ungray s.cfg.pw s.wptrGs →
      exec .tryPop s = .next { s with
        rptr := (s.rptr + 1) % (2 * s.cfg.n)
        ret := .frame (some (readSlot s (s.rptr % s.cfg.n))) })

/-- R102: the Gray code on `pw` bits, its inverse bit by bit, that they undo each other, and that
consecutive values, the wrap included, differ in exactly one bit. -/
def Obligations.GrayCode : Prop :=
  ∀ pw : Nat, 0 < pw →
    (∀ g, g < 2 ^ pw →
      (ungray pw g).testBit (pw - 1) = g.testBit (pw - 1) ∧
        (∀ i, i + 1 < pw →
          (ungray pw g).testBit i = ((ungray pw g).testBit (i + 1) ^^ g.testBit i)) ∧
        gray (ungray pw g) = g) ∧
    ∀ b, b < 2 ^ pw →
      gray b = b ^^^ (b >>> 1) ∧ gray b < 2 ^ pw ∧ ungray pw (gray b) = b ∧
        ∃ i, i < pw ∧ gray ((b + 1) % 2 ^ pw) = gray b ^^^ 2 ^ i

/-- R103: the full and empty tests in Gray form agree with the binary tests of R173 and R174. -/
def Obligations.GrayTestsAgree : Prop :=
  ∀ s : State, s.cfg.wf = true → s.wptr < ptrMod s → s.rptr < ptrMod s → s.wptrGs < ptrMod s →
    s.rptrGs < ptrMod s → fullGray s = fullP s ∧ emptyGray s = emptyC s

/-- R175, R176: each synchroniser copies its pointer in Gray code and changes nothing else, whenever the
queue exists. -/
def Obligations.SynchroniserEffect : Prop :=
  ∀ s : State, rxcReady s = true → s.qAlloc = true →
    exec .syncW s = .next { s with wptrGs := s.wptr ^^^ (s.wptr >>> 1) } ∧
      exec .syncR s = .next { s with rptrGs := s.rptr ^^^ (s.rptr >>> 1) }

/-- R178: the queue's invariant is kept by every step of every agent. -/
def Obligations.QueueInvariantKept : Prop :=
  ∀ s t : State, s.cfg.wf = true → QueueInv s → step s = .next t → QueueInv t

/-- R178: what the invariant says: the three bounds, that a push never overwrites an unpopped frame and that
a pop never reads a slot that was not pushed. -/
def Obligations.QueueInvariantMeaning : Prop :=
  ∀ s : State, s.cfg.wf = true → QueueInv s → s.qAlloc = true →
    occ s ≤ s.cfg.n ∧ subMod s.rptr (rSeen s) (ptrMod s) ≤ s.cfg.n ∧
      subMod s.wptr (rSeen s) (ptrMod s) ≤ s.cfg.n ∧ subMod (wSeen s) s.rptr (ptrMod s) ≤ occ s ∧
      (fullP s = false → occ s < s.cfg.n) ∧ (emptyC s = false → 0 < occ s)

/-- R67, R69, R178 d: the storage and its pointers are a first-in first-out list: a push that succeeds
appends, a push that fails leaves the list, a pop takes the head. -/
def Obligations.QueueIsFifo : Prop :=
  ∀ (s : State) (f : Frame), s.cfg.wf = true → QueueInv s → s.qAlloc = true →
    ((tryPush f s).1 = true → contents (tryPush f s).2 = contents s ++ [f]) ∧
      ((tryPush f s).1 = false → contents (tryPush f s).2 = contents s) ∧
      (∀ g, (tryPop s).1 = some g → contents s = g :: contents (tryPop s).2) ∧
      ((tryPop s).1 = none → contents (tryPop s).2 = contents s)

/-- R181: from an empty, settled queue `N` pushes succeed and one more fails; before SYNC_W a pop returns
nothing; after it `N` pops return the frames in order and one more returns nothing. -/
def Obligations.PushesThenPops : Prop :=
  ∀ (s : State) (fs : List Frame) (f : Frame), s.cfg.wf = true → storageWf s = true →
    s.rptr < ptrMod s → s.wptr = s.rptr → s.wptrGs = gray s.wptr → s.rptrGs = gray s.rptr →
    fs.length = s.cfg.n →
      (pushAll fs s).1 = List.replicate s.cfg.n true ∧
        (tryPush f (pushAll fs s).2).1 = false ∧
        (tryPop (pushAll fs s).2).1 = none ∧
        (popMany (s.cfg.n + 1) { (pushAll fs s).2 with wptrGs := gray (pushAll fs s).2.wptr }).1 =
          fs.map some ++ [none]

/-! ### Frames -/

/-- R131, R94, R132: FRAME.BUILD clamps the length to 8, assembles the 11-bit identifier, copies the payload
below the length and zeroes the rest, and its result meets the Frame invariants. -/
def Obligations.BuiltFrame : Prop :=
  ∀ w : RawMsg,
    (frameBuild w).control = BitVec.ofNat 8 (min (w[0] &&& 0x0F).toNat 8) ∧
      (frameBuild w).id.toNat = w[1].toNat * 8 + w[2].toNat / 32 ∧
      (∀ i : Fin 8, (frameBuild w).payload[i] =
        if i.val < min (w[0] &&& 0x0F).toNat 8 then w[3 + i.val]'(by omega) else 0) ∧
      frameOk (frameBuild w) = true

/-- R132: every frame in the queue meets the Frame invariants and every string sent is the 13 bytes of such
a frame; every step of every agent keeps this. -/
def Obligations.FrameInvariantKept : Prop :=
  ∀ s t : State, s.cfg.wf = true → QueueInv s → FrameInv s → step s = .next t → FrameInv t

/-- R92, R133, R61: a Frame is 13 bytes, byte `i` of which is bits `8i + 7` to `8i` of the 104-bit value:
the control byte, the identifier low byte first, the payload. -/
def Obligations.FrameLayout : Prop :=
  ∀ f : Frame,
    (frameBytes f).length = 13 ∧
      (∀ i, i < 13 → (frameBytes f)[i]? = some ((frameBits f).extractLsb' (8 * i) 8)) ∧
      (frameBytes f)[0]? = some f.control ∧
      (∀ i, i < 4 → (frameBytes f)[1 + i]? = some (f.id.extractLsb' (8 * i) 8)) ∧
      ∀ i : Fin 8, (frameBytes f)[5 + i.val]? = some f.payload[i]

/-! ### The environment and reset -/

/-- R254, R255, R258: an operational MAC appends an accepted message and latches `RX` if it is enabled, and
loses the message without a trace otherwise; an error latches its bit, one of 2, 5, 6 and 7, if it is enabled,
and leaves no trace otherwise. The two losing cases are steps without an effect by the model's choice (log 20). -/
def Obligations.MacEffect : Prop :=
  (ErrBit.bitErr.bit = 2 ∧ ErrBit.errPassive.bit = 5 ∧ ErrBit.arbLost.bit = 6 ∧ ErrBit.busErr.bit = 7) ∧
  ∀ (s : State) (m : RawMsg) (b : ErrBit), s.powered = true → modeRm s.mac.mode = false →
    (s.mac.rxq.length < s.cfg.rxfifoMsgs → s.cfg.acfMatch (acf s) m = true →
      exec (.macRx m) s = .next { s with mac := { s.mac with
        rxq := s.mac.rxq ++ [m]
        isr := if s.mac.ier.getLsbD 0 then s.mac.isr ||| 0x01 else s.mac.isr } }) ∧
    (s.cfg.rxfifoMsgs ≤ s.mac.rxq.length ∨ s.cfg.acfMatch (acf s) m = false →
      exec (.macRx m) s = .next s) ∧
    (s.mac.ier.getLsbD b.bit = true →
      exec (.macErr b) s =
        .next { s with mac := { s.mac with isr := s.mac.isr ||| (1#8 <<< b.bit) } }) ∧
    (s.mac.ier.getLsbD b.bit = false → exec (.macErr b) s = .next s)

/-- R290, R291, R140, R49: RESET happens once, sets every piece of RXC's own state to R291's value, and the
fault bit exactly when the configuration is ill-formed. The slots and the MAC are unspecified: here some
`N` frames and some MAC with at most `RXFIFO_MSGS` messages (log 9, log 10). That a second RESET is refused
(`alreadyReset`), and that the agenda and the listed answers are kept, is the model's choice (log 17). -/
def Obligations.ResetEffect : Prop :=
  ∀ s : State,
    (s.powered = true → exec .reset s = .refused .alreadyReset) ∧
    (s.powered = false →
      ∃ (m : Mac) (frames : List Frame),
        frames.length = s.cfg.n ∧ m.rxq.length ≤ s.cfg.rxfifoMsgs ∧
          exec .reset s = .next { State.resetWith s.cfg with
            slots := frames, mac := m, agenda := s.agenda, resetAcks := s.resetAcks
            draws := s.draws + 1 })

/-- R291, R20, R23, R26, R28, R29, R31, R49: the state right after reset, for every configuration, and that
it meets every invariant. The values of the slots and the MAC are the model's (log 9, log 10) and are not
named here. -/
def Obligations.ResetState : Prop :=
  ∀ c : Config,
    let s := State.resetWith c
    s.life = .uninstalled ∧ s.running = false ∧
      s.tab = c.profile.map (fun e => ⟨e.id, e.dflt.toNat, e.dflt.toNat, 0⟩) ∧ s.swKind = .none ∧ s.swK = 0 ∧
      s.faultCfg = !c.wf ∧ s.qAlloc = false ∧ s.wptr = 0 ∧ s.rptr = 0 ∧ s.wptrGs = 0 ∧ s.rptrGs = 0 ∧
      s.drPhase = .idle ∧ s.drRemaining = 0 ∧ s.drPushed = false ∧ s.cntIrq = 0 ∧ s.cntErr = 0 ∧
      s.cntAdmitted = 0 ∧ s.cntForwarded = 0 ∧ s.rxpinFloating = false ∧ s.sink = [] ∧
      s.resched = 0 ∧ s.log = [] ∧
      TableInv s ∧ QueueInv s ∧ LifeInv s ∧ DrainInv s ∧ SweepInv s ∧ FaultInv s ∧ FrameInv s

/-! ### Invariants of every step -/

/-- R24, R157: the table's keys and defaults never change, a rate is 0 or the default, a count stays below
the default; so every default, rate and count fits `RATE_W` bits, and `count + 1` overflows no width of at least
1. -/
def Obligations.TableInvariantKept : Prop :=
  ∀ s t : State, TableInv s → step s = .next t → TableInv t ∧
    ∀ e ∈ t.tab, e.dflt < 2 ^ t.cfg.rateW ∧ e.rate < 2 ^ t.cfg.rateW ∧ e.count < 2 ^ t.cfg.rateW ∧
      (0 < t.cfg.rateW → e.count + 1 < 2 ^ t.cfg.rateW)

/-- R200, R21, R28, R36, R258, R73: the lifecycle's invariant: the queue exists exactly while a handler is
installed, the mode and the masks are those the lifecycle wrote, and the drainer is active only in
`Running` and `Stopped`. -/
def Obligations.LifecycleInvariantKept : Prop :=
  ∀ s t : State, LifeInv s → step s = .next t → LifeInv t

/-- R245, R46, R49: the messages still to handle are in the FIFO, a sweep names an entry, the host is in one
operation at a time, and the fault bit says whether the configuration is ill-formed; every step keeps all
three and the configuration. -/
def Obligations.SequencingInvariantsKept : Prop :=
  ∀ s t : State, step s = .next t →
    t.cfg = s.cfg ∧ (DrainInv s → DrainInv t) ∧ (SweepInv s → SweepInv t) ∧ (FaultInv s → FaultInv t)

/-- R240: what each context may write. A drainer row leaves the lifecycle, the MAC's configuration, the
consumer side, the rates, the forwarded count, the sweep and the host's streams; a host row leaves the slots and
the drainer's working state, and of the drainer's three counters zeroes at most one; a host row other than
INSTALL, START and UNINSTALL leaves the MAC, the producer side and the storage. -/
def Obligations.ContextAccessRights : Prop :=
  ∀ (i : Instr) (s t : State), exec i s = .next t →
    (drainerRow i = true →
      t.life = s.life ∧ t.running = s.running ∧ t.mac.mode = s.mac.mode ∧ t.mac.ier = s.mac.ier ∧
        t.mac.btr0 = s.mac.btr0 ∧ t.mac.btr1 = s.mac.btr1 ∧ t.mac.code = s.mac.code ∧
        t.mac.mask = s.mac.mask ∧ t.rptr = s.rptr ∧ t.wptrGs = s.wptrGs ∧ t.rptrGs = s.rptrGs ∧
        t.qAlloc = s.qAlloc ∧ t.cntForwarded = s.cntForwarded ∧ t.swKind = s.swKind ∧ t.swK = s.swK ∧
        t.sink = s.sink ∧ t.log = s.log ∧
        t.tab.map (fun e => (e.id, e.dflt, e.rate)) = s.tab.map (fun e => (e.id, e.dflt, e.rate))) ∧
    (hostRow i = true →
      t.slots = s.slots ∧ t.drPhase = s.drPhase ∧ t.drRemaining = s.drRemaining ∧
        t.drPushed = s.drPushed ∧ t.resched = s.resched ∧ (t.cntIrq = s.cntIrq ∨ t.cntIrq = 0) ∧
        (t.cntErr = s.cntErr ∨ t.cntErr = 0) ∧ (t.cntAdmitted = s.cntAdmitted ∨ t.cntAdmitted = 0) ∧
        (t.cntIrq = s.cntIrq ∨ t.cntErr = s.cntErr) ∧ (t.cntIrq = s.cntIrq ∨ t.cntAdmitted = s.cntAdmitted) ∧
        (t.cntErr = s.cntErr ∨ t.cntAdmitted = s.cntAdmitted) ∧
        t.tab.map (fun e => (e.id, e.dflt)) = s.tab.map (fun e => (e.id, e.dflt)) ∧
        (i ≠ .install → t.mac.rxq = s.mac.rxq)) ∧
    (hostRow i = true → configRow i = false →
      t.mac = s.mac ∧ t.wptr = s.wptr ∧ t.wptrGs = s.wptrGs ∧ t.rptrGs = s.rptrGs ∧
        t.qAlloc = s.qAlloc ∧ t.running = s.running)

/-- R73, R302, R240: while the drainer is inside an invocation no step of any agent changes the MAC's mode,
masks, timing or filter, frees the queue, or moves a pointer but by a push or a pop. -/
def Obligations.CriticalSectionFreezesConfiguration : Prop :=
  ∀ s t : State, s.powered = true → csHeld s = true → step s = .next t →
    t.mac.mode = s.mac.mode ∧ t.mac.ier = s.mac.ier ∧ t.mac.btr0 = s.mac.btr0 ∧
      t.mac.btr1 = s.mac.btr1 ∧ t.mac.code = s.mac.code ∧ t.mac.mask = s.mac.mask ∧
      t.qAlloc = s.qAlloc ∧ (t.wptr = s.wptr ∨ t.wptr = (s.wptr + 1) % ptrMod s) ∧
      (t.rptr = s.rptr ∨ t.rptr = (s.rptr + 1) % ptrMod s)

/-- R32: after RESET the output streams only grow, each stream by at most one event a step. -/
def Obligations.OutputStreamsGrow : Prop :=
  ∀ s t : State, s.powered = true → step s = .next t →
    (t.sink = s.sink ∨ ∃ b, t.sink = s.sink ++ [b]) ∧
      (t.resched = s.resched ∨ t.resched = s.resched + 1) ∧
      (t.log = s.log ∨ ∃ e, t.log = s.log ++ [e])

/-- R305: with the host and the MAC doing nothing, RXC becomes quiescent within a bound. The order its own
agents move in is the model's choice (log 2); the queue must exist, since a synchroniser moves only then. -/
def Obligations.SettlesToQuiescence : Prop :=
  ∀ s : State, rxcReady s = true → s.cfg.wf = true → QueueInv s → LifeInv s → DrainInv s → SweepInv s →
    s.life ≠ .uninstalled → s.hostHeld = none → s.agenda = [] →
      ∃ k t, k ≤ settleSteps s ∧
        Host.Core.run ⟨State, Fault, Refusal, step, State.reset⟩ k s = .next t ∧ quiescent t = true
end

