-- ==== Sys2Proof/Laws/Config.lean ====
section
/-!
SUPPORT. The parameters: `ACF_MATCH` as data stands for every total function that passes the accept-all filter
(00_scope.md R5), and for no other.
-/

namespace Sys2Proof

@[simp] theorem Config.acfMatch_acceptAll (c : Config) {f : Filter} (h : f.isAcceptAll = true) (m : RawMsg) :
    c.acfMatch f m = true := by
  simp [acfMatch, h]

theorem Config.acfMatch_eq_false {c : Config} {f : Filter} {m : RawMsg} :
    c.acfMatch f m = false ↔ f.isAcceptAll = false ∧ (f, m) ∈ c.acfRejects := by
  simp [acfMatch]

theorem bitVec_finite (w : Nat) : Finite (BitVec w) :=
  Finite.of_injective BitVec.toFin fun _ _ h => BitVec.eq_of_toFin_eq h

theorem filter_finite : Finite Filter := by
  have := bitVec_finite 32
  exact Finite.of_injective (fun f : Filter => (f.code, f.mask, f.single)) fun a b h => by
    cases a; cases b; simp_all

theorem rawMsg_finite : Finite RawMsg := by
  have := bitVec_finite 8
  exact Finite.of_injective (fun (m : RawMsg) (i : Fin 13) => m[i]) fun a b h =>
    Vector.ext fun i hi => congrFun h ⟨i, hi⟩

/-- Every `ACF_MATCH` that R5 allows is some value of the parameter. -/
theorem Config.acfMatch_every_function (c : Config) (g : Filter → RawMsg → Bool)
    (hg : ∀ f m, f.isAcceptAll = true → g f m = true) :
    ∃ l, Config.acfMatch { c with acfRejects := l } = g := by
  have := filter_finite
  have := rawMsg_finite
  have hfin : {p : Filter × RawMsg | g p.1 p.2 = false}.Finite := Set.toFinite _
  refine ⟨hfin.toFinset.toList, ?_⟩
  funext f m
  cases hf : f.isAcceptAll with
  | true => simp [hf, hg f m hf]
  | false => cases hgv : g f m <;> simp [acfMatch, hf, hgv]

end Sys2Proof
end

