-- ==== Sys2Proof/Laws/State.lean ====
section
/-!
SUPPORT. What each named update does to each field of the state, field by field.
-/

namespace Sys2Proof.Machine

/-! ### setRet -/

@[simp] theorem setRet_cfg (r : Ret) (s : State) : (setRet r s).cfg = s.cfg := rfl
@[simp] theorem setRet_powered (r : Ret) (s : State) : (setRet r s).powered = s.powered := rfl
@[simp] theorem setRet_life (r : Ret) (s : State) : (setRet r s).life = s.life := rfl
@[simp] theorem setRet_running (r : Ret) (s : State) : (setRet r s).running = s.running := rfl
@[simp] theorem setRet_tab (r : Ret) (s : State) : (setRet r s).tab = s.tab := rfl
@[simp] theorem setRet_swKind (r : Ret) (s : State) : (setRet r s).swKind = s.swKind := rfl
@[simp] theorem setRet_swK (r : Ret) (s : State) : (setRet r s).swK = s.swK := rfl
@[simp] theorem setRet_slots (r : Ret) (s : State) : (setRet r s).slots = s.slots := rfl
@[simp] theorem setRet_wptr (r : Ret) (s : State) : (setRet r s).wptr = s.wptr := rfl
@[simp] theorem setRet_rptr (r : Ret) (s : State) : (setRet r s).rptr = s.rptr := rfl
@[simp] theorem setRet_wptrGs (r : Ret) (s : State) : (setRet r s).wptrGs = s.wptrGs := rfl
@[simp] theorem setRet_rptrGs (r : Ret) (s : State) : (setRet r s).rptrGs = s.rptrGs := rfl
@[simp] theorem setRet_qAlloc (r : Ret) (s : State) : (setRet r s).qAlloc = s.qAlloc := rfl
@[simp] theorem setRet_drPhase (r : Ret) (s : State) : (setRet r s).drPhase = s.drPhase := rfl
@[simp] theorem setRet_drRemaining (r : Ret) (s : State) : (setRet r s).drRemaining = s.drRemaining := rfl
@[simp] theorem setRet_drPushed (r : Ret) (s : State) : (setRet r s).drPushed = s.drPushed := rfl
@[simp] theorem setRet_rxpinFloating (r : Ret) (s : State) : (setRet r s).rxpinFloating = s.rxpinFloating := rfl
@[simp] theorem setRet_cntIrq (r : Ret) (s : State) : (setRet r s).cntIrq = s.cntIrq := rfl
@[simp] theorem setRet_cntErr (r : Ret) (s : State) : (setRet r s).cntErr = s.cntErr := rfl
@[simp] theorem setRet_cntAdmitted (r : Ret) (s : State) : (setRet r s).cntAdmitted = s.cntAdmitted := rfl
@[simp] theorem setRet_cntForwarded (r : Ret) (s : State) : (setRet r s).cntForwarded = s.cntForwarded := rfl
@[simp] theorem setRet_faultCfg (r : Ret) (s : State) : (setRet r s).faultCfg = s.faultCfg := rfl
@[simp] theorem setRet_sink (r : Ret) (s : State) : (setRet r s).sink = s.sink := rfl
@[simp] theorem setRet_resched (r : Ret) (s : State) : (setRet r s).resched = s.resched := rfl
@[simp] theorem setRet_log (r : Ret) (s : State) : (setRet r s).log = s.log := rfl
@[simp] theorem setRet_hostHeld (r : Ret) (s : State) : (setRet r s).hostHeld = s.hostHeld := rfl
@[simp] theorem setRet_mac (r : Ret) (s : State) : (setRet r s).mac = s.mac := rfl
@[simp] theorem setRet_agenda (r : Ret) (s : State) : (setRet r s).agenda = s.agenda := rfl
@[simp] theorem setRet_resetAcks (r : Ret) (s : State) : (setRet r s).resetAcks = s.resetAcks := rfl
@[simp] theorem setRet_draws (r : Ret) (s : State) : (setRet r s).draws = s.draws := rfl
@[simp] theorem setRet_ret (r : Ret) (s : State) : (setRet r s).ret = r := rfl

/-! ### clearIsr -/

@[simp] theorem clearIsr_cfg (s : State) : (clearIsr s).cfg = s.cfg := rfl
@[simp] theorem clearIsr_powered (s : State) : (clearIsr s).powered = s.powered := rfl
@[simp] theorem clearIsr_life (s : State) : (clearIsr s).life = s.life := rfl
@[simp] theorem clearIsr_running (s : State) : (clearIsr s).running = s.running := rfl
@[simp] theorem clearIsr_tab (s : State) : (clearIsr s).tab = s.tab := rfl
@[simp] theorem clearIsr_swKind (s : State) : (clearIsr s).swKind = s.swKind := rfl
@[simp] theorem clearIsr_swK (s : State) : (clearIsr s).swK = s.swK := rfl
@[simp] theorem clearIsr_slots (s : State) : (clearIsr s).slots = s.slots := rfl
@[simp] theorem clearIsr_wptr (s : State) : (clearIsr s).wptr = s.wptr := rfl
@[simp] theorem clearIsr_rptr (s : State) : (clearIsr s).rptr = s.rptr := rfl
@[simp] theorem clearIsr_wptrGs (s : State) : (clearIsr s).wptrGs = s.wptrGs := rfl
@[simp] theorem clearIsr_rptrGs (s : State) : (clearIsr s).rptrGs = s.rptrGs := rfl
@[simp] theorem clearIsr_qAlloc (s : State) : (clearIsr s).qAlloc = s.qAlloc := rfl
@[simp] theorem clearIsr_drPhase (s : State) : (clearIsr s).drPhase = s.drPhase := rfl
@[simp] theorem clearIsr_drRemaining (s : State) : (clearIsr s).drRemaining = s.drRemaining := rfl
@[simp] theorem clearIsr_drPushed (s : State) : (clearIsr s).drPushed = s.drPushed := rfl
@[simp] theorem clearIsr_rxpinFloating (s : State) : (clearIsr s).rxpinFloating = s.rxpinFloating := rfl
@[simp] theorem clearIsr_cntIrq (s : State) : (clearIsr s).cntIrq = s.cntIrq := rfl
@[simp] theorem clearIsr_cntErr (s : State) : (clearIsr s).cntErr = s.cntErr := rfl
@[simp] theorem clearIsr_cntAdmitted (s : State) : (clearIsr s).cntAdmitted = s.cntAdmitted := rfl
@[simp] theorem clearIsr_cntForwarded (s : State) : (clearIsr s).cntForwarded = s.cntForwarded := rfl
@[simp] theorem clearIsr_faultCfg (s : State) : (clearIsr s).faultCfg = s.faultCfg := rfl
@[simp] theorem clearIsr_sink (s : State) : (clearIsr s).sink = s.sink := rfl
@[simp] theorem clearIsr_resched (s : State) : (clearIsr s).resched = s.resched := rfl
@[simp] theorem clearIsr_log (s : State) : (clearIsr s).log = s.log := rfl
@[simp] theorem clearIsr_hostHeld (s : State) : (clearIsr s).hostHeld = s.hostHeld := rfl
@[simp] theorem clearIsr_mac (s : State) : (clearIsr s).mac = { s.mac with isr := 0 } := rfl
@[simp] theorem clearIsr_agenda (s : State) : (clearIsr s).agenda = s.agenda := rfl
@[simp] theorem clearIsr_resetAcks (s : State) : (clearIsr s).resetAcks = s.resetAcks := rfl
@[simp] theorem clearIsr_draws (s : State) : (clearIsr s).draws = s.draws := rfl
@[simp] theorem clearIsr_ret (s : State) : (clearIsr s).ret = s.ret := rfl

/-! ### qClear -/

@[simp] theorem qClear_cfg (s : State) : (qClear s).cfg = s.cfg := rfl
@[simp] theorem qClear_powered (s : State) : (qClear s).powered = s.powered := rfl
@[simp] theorem qClear_life (s : State) : (qClear s).life = s.life := rfl
@[simp] theorem qClear_running (s : State) : (qClear s).running = s.running := rfl
@[simp] theorem qClear_tab (s : State) : (qClear s).tab = s.tab := rfl
@[simp] theorem qClear_swKind (s : State) : (qClear s).swKind = s.swKind := rfl
@[simp] theorem qClear_swK (s : State) : (qClear s).swK = s.swK := rfl
@[simp] theorem qClear_slots (s : State) : (qClear s).slots = s.slots := rfl
@[simp] theorem qClear_wptr (s : State) : (qClear s).wptr = 0 := rfl
@[simp] theorem qClear_rptr (s : State) : (qClear s).rptr = 0 := rfl
@[simp] theorem qClear_wptrGs (s : State) : (qClear s).wptrGs = 0 := rfl
@[simp] theorem qClear_rptrGs (s : State) : (qClear s).rptrGs = 0 := rfl
@[simp] theorem qClear_qAlloc (s : State) : (qClear s).qAlloc = s.qAlloc := rfl
@[simp] theorem qClear_drPhase (s : State) : (qClear s).drPhase = s.drPhase := rfl
@[simp] theorem qClear_drRemaining (s : State) : (qClear s).drRemaining = s.drRemaining := rfl
@[simp] theorem qClear_drPushed (s : State) : (qClear s).drPushed = s.drPushed := rfl
@[simp] theorem qClear_rxpinFloating (s : State) : (qClear s).rxpinFloating = s.rxpinFloating := rfl
@[simp] theorem qClear_cntIrq (s : State) : (qClear s).cntIrq = s.cntIrq := rfl
@[simp] theorem qClear_cntErr (s : State) : (qClear s).cntErr = s.cntErr := rfl
@[simp] theorem qClear_cntAdmitted (s : State) : (qClear s).cntAdmitted = s.cntAdmitted := rfl
@[simp] theorem qClear_cntForwarded (s : State) : (qClear s).cntForwarded = s.cntForwarded := rfl
@[simp] theorem qClear_faultCfg (s : State) : (qClear s).faultCfg = s.faultCfg := rfl
@[simp] theorem qClear_sink (s : State) : (qClear s).sink = s.sink := rfl
@[simp] theorem qClear_resched (s : State) : (qClear s).resched = s.resched := rfl
@[simp] theorem qClear_log (s : State) : (qClear s).log = s.log := rfl
@[simp] theorem qClear_hostHeld (s : State) : (qClear s).hostHeld = s.hostHeld := rfl
@[simp] theorem qClear_mac (s : State) : (qClear s).mac = s.mac := rfl
@[simp] theorem qClear_agenda (s : State) : (qClear s).agenda = s.agenda := rfl
@[simp] theorem qClear_resetAcks (s : State) : (qClear s).resetAcks = s.resetAcks := rfl
@[simp] theorem qClear_draws (s : State) : (qClear s).draws = s.draws := rfl
@[simp] theorem qClear_ret (s : State) : (qClear s).ret = s.ret := rfl

/-! ### qAllocate -/

@[simp] theorem qAllocate_cfg (s : State) : (qAllocate s).cfg = s.cfg := rfl
@[simp] theorem qAllocate_powered (s : State) : (qAllocate s).powered = s.powered := rfl
@[simp] theorem qAllocate_life (s : State) : (qAllocate s).life = s.life := rfl
@[simp] theorem qAllocate_running (s : State) : (qAllocate s).running = s.running := rfl
@[simp] theorem qAllocate_tab (s : State) : (qAllocate s).tab = s.tab := rfl
@[simp] theorem qAllocate_swKind (s : State) : (qAllocate s).swKind = s.swKind := rfl
@[simp] theorem qAllocate_swK (s : State) : (qAllocate s).swK = s.swK := rfl
@[simp] theorem qAllocate_slots (s : State) : (qAllocate s).slots = s.slots := rfl
@[simp] theorem qAllocate_wptr (s : State) : (qAllocate s).wptr = 0 := rfl
@[simp] theorem qAllocate_rptr (s : State) : (qAllocate s).rptr = 0 := rfl
@[simp] theorem qAllocate_wptrGs (s : State) : (qAllocate s).wptrGs = 0 := rfl
@[simp] theorem qAllocate_rptrGs (s : State) : (qAllocate s).rptrGs = 0 := rfl
@[simp] theorem qAllocate_qAlloc (s : State) : (qAllocate s).qAlloc = true := rfl
@[simp] theorem qAllocate_drPhase (s : State) : (qAllocate s).drPhase = s.drPhase := rfl
@[simp] theorem qAllocate_drRemaining (s : State) : (qAllocate s).drRemaining = s.drRemaining := rfl
@[simp] theorem qAllocate_drPushed (s : State) : (qAllocate s).drPushed = s.drPushed := rfl
@[simp] theorem qAllocate_rxpinFloating (s : State) : (qAllocate s).rxpinFloating = s.rxpinFloating := rfl
@[simp] theorem qAllocate_cntIrq (s : State) : (qAllocate s).cntIrq = s.cntIrq := rfl
@[simp] theorem qAllocate_cntErr (s : State) : (qAllocate s).cntErr = s.cntErr := rfl
@[simp] theorem qAllocate_cntAdmitted (s : State) : (qAllocate s).cntAdmitted = s.cntAdmitted := rfl
@[simp] theorem qAllocate_cntForwarded (s : State) : (qAllocate s).cntForwarded = s.cntForwarded := rfl
@[simp] theorem qAllocate_faultCfg (s : State) : (qAllocate s).faultCfg = s.faultCfg := rfl
@[simp] theorem qAllocate_sink (s : State) : (qAllocate s).sink = s.sink := rfl
@[simp] theorem qAllocate_resched (s : State) : (qAllocate s).resched = s.resched := rfl
@[simp] theorem qAllocate_log (s : State) : (qAllocate s).log = s.log := rfl
@[simp] theorem qAllocate_hostHeld (s : State) : (qAllocate s).hostHeld = s.hostHeld := rfl
@[simp] theorem qAllocate_mac (s : State) : (qAllocate s).mac = s.mac := rfl
@[simp] theorem qAllocate_agenda (s : State) : (qAllocate s).agenda = s.agenda := rfl
@[simp] theorem qAllocate_resetAcks (s : State) : (qAllocate s).resetAcks = s.resetAcks := rfl
@[simp] theorem qAllocate_draws (s : State) : (qAllocate s).draws = s.draws := rfl
@[simp] theorem qAllocate_ret (s : State) : (qAllocate s).ret = s.ret := rfl

/-! ### qFree -/

@[simp] theorem qFree_cfg (s : State) : (qFree s).cfg = s.cfg := rfl
@[simp] theorem qFree_powered (s : State) : (qFree s).powered = s.powered := rfl
@[simp] theorem qFree_life (s : State) : (qFree s).life = s.life := rfl
@[simp] theorem qFree_running (s : State) : (qFree s).running = s.running := rfl
@[simp] theorem qFree_tab (s : State) : (qFree s).tab = s.tab := rfl
@[simp] theorem qFree_swKind (s : State) : (qFree s).swKind = s.swKind := rfl
@[simp] theorem qFree_swK (s : State) : (qFree s).swK = s.swK := rfl
@[simp] theorem qFree_slots (s : State) : (qFree s).slots = s.slots := rfl
@[simp] theorem qFree_wptr (s : State) : (qFree s).wptr = s.wptr := rfl
@[simp] theorem qFree_rptr (s : State) : (qFree s).rptr = s.rptr := rfl
@[simp] theorem qFree_wptrGs (s : State) : (qFree s).wptrGs = s.wptrGs := rfl
@[simp] theorem qFree_rptrGs (s : State) : (qFree s).rptrGs = s.rptrGs := rfl
@[simp] theorem qFree_qAlloc (s : State) : (qFree s).qAlloc = false := rfl
@[simp] theorem qFree_drPhase (s : State) : (qFree s).drPhase = s.drPhase := rfl
@[simp] theorem qFree_drRemaining (s : State) : (qFree s).drRemaining = s.drRemaining := rfl
@[simp] theorem qFree_drPushed (s : State) : (qFree s).drPushed = s.drPushed := rfl
@[simp] theorem qFree_rxpinFloating (s : State) : (qFree s).rxpinFloating = s.rxpinFloating := rfl
@[simp] theorem qFree_cntIrq (s : State) : (qFree s).cntIrq = s.cntIrq := rfl
@[simp] theorem qFree_cntErr (s : State) : (qFree s).cntErr = s.cntErr := rfl
@[simp] theorem qFree_cntAdmitted (s : State) : (qFree s).cntAdmitted = s.cntAdmitted := rfl
@[simp] theorem qFree_cntForwarded (s : State) : (qFree s).cntForwarded = s.cntForwarded := rfl
@[simp] theorem qFree_faultCfg (s : State) : (qFree s).faultCfg = s.faultCfg := rfl
@[simp] theorem qFree_sink (s : State) : (qFree s).sink = s.sink := rfl
@[simp] theorem qFree_resched (s : State) : (qFree s).resched = s.resched := rfl
@[simp] theorem qFree_log (s : State) : (qFree s).log = s.log := rfl
@[simp] theorem qFree_hostHeld (s : State) : (qFree s).hostHeld = s.hostHeld := rfl
@[simp] theorem qFree_mac (s : State) : (qFree s).mac = s.mac := rfl
@[simp] theorem qFree_agenda (s : State) : (qFree s).agenda = s.agenda := rfl
@[simp] theorem qFree_resetAcks (s : State) : (qFree s).resetAcks = s.resetAcks := rfl
@[simp] theorem qFree_draws (s : State) : (qFree s).draws = s.draws := rfl
@[simp] theorem qFree_ret (s : State) : (qFree s).ret = s.ret := rfl

/-! ### leaveInterrupt -/

@[simp] theorem leaveInterrupt_cfg (s : State) : (leaveInterrupt s).cfg = s.cfg := rfl
@[simp] theorem leaveInterrupt_powered (s : State) : (leaveInterrupt s).powered = s.powered := rfl
@[simp] theorem leaveInterrupt_life (s : State) : (leaveInterrupt s).life = s.life := rfl
@[simp] theorem leaveInterrupt_running (s : State) : (leaveInterrupt s).running = s.running := rfl
@[simp] theorem leaveInterrupt_tab (s : State) : (leaveInterrupt s).tab = s.tab := rfl
@[simp] theorem leaveInterrupt_swKind (s : State) : (leaveInterrupt s).swKind = s.swKind := rfl
@[simp] theorem leaveInterrupt_swK (s : State) : (leaveInterrupt s).swK = s.swK := rfl
@[simp] theorem leaveInterrupt_slots (s : State) : (leaveInterrupt s).slots = s.slots := rfl
@[simp] theorem leaveInterrupt_wptr (s : State) : (leaveInterrupt s).wptr = s.wptr := rfl
@[simp] theorem leaveInterrupt_rptr (s : State) : (leaveInterrupt s).rptr = s.rptr := rfl
@[simp] theorem leaveInterrupt_wptrGs (s : State) : (leaveInterrupt s).wptrGs = s.wptrGs := rfl
@[simp] theorem leaveInterrupt_rptrGs (s : State) : (leaveInterrupt s).rptrGs = s.rptrGs := rfl
@[simp] theorem leaveInterrupt_qAlloc (s : State) : (leaveInterrupt s).qAlloc = s.qAlloc := rfl
@[simp] theorem leaveInterrupt_drPhase (s : State) : (leaveInterrupt s).drPhase = .idle := rfl
@[simp] theorem leaveInterrupt_drRemaining (s : State) : (leaveInterrupt s).drRemaining = s.drRemaining := rfl
@[simp] theorem leaveInterrupt_drPushed (s : State) : (leaveInterrupt s).drPushed = s.drPushed := rfl
@[simp] theorem leaveInterrupt_rxpinFloating (s : State) : (leaveInterrupt s).rxpinFloating = s.rxpinFloating := rfl
@[simp] theorem leaveInterrupt_cntIrq (s : State) : (leaveInterrupt s).cntIrq = s.cntIrq := rfl
@[simp] theorem leaveInterrupt_cntErr (s : State) : (leaveInterrupt s).cntErr = s.cntErr := rfl
@[simp] theorem leaveInterrupt_cntAdmitted (s : State) : (leaveInterrupt s).cntAdmitted = s.cntAdmitted := rfl
@[simp] theorem leaveInterrupt_cntForwarded (s : State) : (leaveInterrupt s).cntForwarded = s.cntForwarded := rfl
@[simp] theorem leaveInterrupt_faultCfg (s : State) : (leaveInterrupt s).faultCfg = s.faultCfg := rfl
@[simp] theorem leaveInterrupt_sink (s : State) : (leaveInterrupt s).sink = s.sink := rfl
@[simp] theorem leaveInterrupt_resched (s : State) : (leaveInterrupt s).resched = if s.drPushed then s.resched + 1 else s.resched := rfl
@[simp] theorem leaveInterrupt_log (s : State) : (leaveInterrupt s).log = s.log := rfl
@[simp] theorem leaveInterrupt_hostHeld (s : State) : (leaveInterrupt s).hostHeld = s.hostHeld := rfl
@[simp] theorem leaveInterrupt_mac (s : State) : (leaveInterrupt s).mac = s.mac := rfl
@[simp] theorem leaveInterrupt_agenda (s : State) : (leaveInterrupt s).agenda = s.agenda := rfl
@[simp] theorem leaveInterrupt_resetAcks (s : State) : (leaveInterrupt s).resetAcks = s.resetAcks := rfl
@[simp] theorem leaveInterrupt_draws (s : State) : (leaveInterrupt s).draws = s.draws := rfl
@[simp] theorem leaveInterrupt_ret (s : State) : (leaveInterrupt s).ret = s.ret := rfl

/-! ### entryRx -/

@[simp] theorem entryRx_cfg (s : State) : (entryRx s).cfg = s.cfg := rfl
@[simp] theorem entryRx_powered (s : State) : (entryRx s).powered = s.powered := rfl
@[simp] theorem entryRx_life (s : State) : (entryRx s).life = s.life := rfl
@[simp] theorem entryRx_running (s : State) : (entryRx s).running = s.running := rfl
@[simp] theorem entryRx_tab (s : State) : (entryRx s).tab = s.tab := rfl
@[simp] theorem entryRx_swKind (s : State) : (entryRx s).swKind = s.swKind := rfl
@[simp] theorem entryRx_swK (s : State) : (entryRx s).swK = s.swK := rfl
@[simp] theorem entryRx_slots (s : State) : (entryRx s).slots = s.slots := rfl
@[simp] theorem entryRx_wptr (s : State) : (entryRx s).wptr = s.wptr := rfl
@[simp] theorem entryRx_rptr (s : State) : (entryRx s).rptr = s.rptr := rfl
@[simp] theorem entryRx_wptrGs (s : State) : (entryRx s).wptrGs = s.wptrGs := rfl
@[simp] theorem entryRx_rptrGs (s : State) : (entryRx s).rptrGs = s.rptrGs := rfl
@[simp] theorem entryRx_qAlloc (s : State) : (entryRx s).qAlloc = s.qAlloc := rfl
@[simp] theorem entryRx_drPhase (s : State) : (entryRx s).drPhase = .count := rfl
@[simp] theorem entryRx_drRemaining (s : State) : (entryRx s).drRemaining = s.drRemaining := rfl
@[simp] theorem entryRx_drPushed (s : State) : (entryRx s).drPushed = false := rfl
@[simp] theorem entryRx_rxpinFloating (s : State) : (entryRx s).rxpinFloating = s.rxpinFloating := rfl
@[simp] theorem entryRx_cntIrq (s : State) : (entryRx s).cntIrq = s.cntIrq + 1 := rfl
@[simp] theorem entryRx_cntErr (s : State) : (entryRx s).cntErr = s.cntErr := rfl
@[simp] theorem entryRx_cntAdmitted (s : State) : (entryRx s).cntAdmitted = s.cntAdmitted := rfl
@[simp] theorem entryRx_cntForwarded (s : State) : (entryRx s).cntForwarded = s.cntForwarded := rfl
@[simp] theorem entryRx_faultCfg (s : State) : (entryRx s).faultCfg = s.faultCfg := rfl
@[simp] theorem entryRx_sink (s : State) : (entryRx s).sink = s.sink := rfl
@[simp] theorem entryRx_resched (s : State) : (entryRx s).resched = s.resched := rfl
@[simp] theorem entryRx_log (s : State) : (entryRx s).log = s.log := rfl
@[simp] theorem entryRx_hostHeld (s : State) : (entryRx s).hostHeld = s.hostHeld := rfl
@[simp] theorem entryRx_mac (s : State) : (entryRx s).mac = { s.mac with isr := 0 } := rfl
@[simp] theorem entryRx_agenda (s : State) : (entryRx s).agenda = s.agenda := rfl
@[simp] theorem entryRx_resetAcks (s : State) : (entryRx s).resetAcks = s.resetAcks := rfl
@[simp] theorem entryRx_draws (s : State) : (entryRx s).draws = s.draws := rfl
@[simp] theorem entryRx_ret (s : State) : (entryRx s).ret = s.ret := rfl

end Sys2Proof.Machine
end

