-- ==== Sys2Proof/Laws/Words.lean ====
section
/-!
SUPPORT. Words taken apart into bytes and put together again, for the remote command's immediates
(30_encoding.md R96) and the filter's register words (10_state.md R38).
-/

namespace Sys2Proof

/-- Four bytes of a word, put together, are the word. -/
theorem wordOfBytes_extract (v : Word32) :
    wordOfBytes (v.extractLsb' 24 8) (v.extractLsb' 16 8) (v.extractLsb' 8 8) (v.extractLsb' 0 8) = v := by
  ext i hi
  simp [wordOfBytes]
  interval_cases i <;> simp

/-- Two bytes of a 16-bit value, put together, are the value. -/
theorem halfOfBytes_extract (v : BitVec 16) :
    halfOfBytes (v.extractLsb' 8 8) (v.extractLsb' 0 8) = v := by
  ext i hi
  simp [halfOfBytes]
  interval_cases i <;> simp

namespace Machine

/-- The bytes of a word put together from four bytes are those bytes. -/
theorem filterByte_wordOfBytes (a b c d : Byte) (i : Fin 4) :
    filterByte (wordOfBytes a b c d) i = if i = 0 then a else if i = 1 then b else if i = 2 then c else d := by
  fin_cases i <;> simp [filterByte, wordOfBytes] <;> ext j hj <;> simp <;> interval_cases j <;> simp

/-- The four filter bytes of a value, written one after the other, leave the value. -/
theorem setFilterByte_all (w v : Word32) :
    setFilterByte (setFilterByte (setFilterByte (setFilterByte w 0 (filterByte v 0)) 1 (filterByte v 1)) 2
      (filterByte v 2)) 3 (filterByte v 3) = v := by
  simp only [setFilterByte, filterByte_wordOfBytes]
  exact wordOfBytes_extract v

end Machine

end Sys2Proof
end

