-- ==== Sys2Proof/Laws/Ops.lean ====
section
/-!
SUPPORT. One lemma per shared operation that says everything it can do, for the provers to cite instead of
unfolding it.
-/

namespace Sys2Proof.Machine

/-! ### Gates: what a next state says -/

theorem gated_next {s t : State} {r : Result} (h : gated s r = .next t) :
    s.powered = true ∧ s.faultCfg = false ∧ r = .next t := by
  unfold gated at h
  split at h
  · cases h
  · split at h
    · cases h
    · simp_all

theorem gated_ready {s : State} (r : Result) (hp : s.powered = true) (hf : s.faultCfg = false) :
    gated s r = r := by
  simp [gated, hp, hf]

theorem hostGated_next {m : String} {s t : State} {r : Result} (h : hostGated m s r = .next t) :
    s.powered = true ∧ s.faultCfg = false ∧ hostBusy s = false ∧ r = .next t := by
  obtain ⟨hp, hf, hr⟩ := gated_next h
  split at hr
  · cases hr
  · exact ⟨hp, hf, by simp_all, hr⟩

theorem hostReady_iff {s : State} :
    hostReady s = true ↔ s.powered = true ∧ s.faultCfg = false ∧ hostBusy s = false := by
  simp [hostReady, rxcReady, and_assoc]

theorem hostGated_ready {s : State} (m : String) (r : Result) (h : hostReady s = true) :
    hostGated m s r = r := by
  obtain ⟨hp, hf, hb⟩ := hostReady_iff.1 h
  simp [hostGated, gated_ready _ hp hf, hb]

theorem heldOr_next {op : HeldOp} {s t : State} {r : Result} (h : heldOr op s r = .next t) :
    (csHeld s = true ∧ t = { s with hostHeld := some op }) ∨ (csHeld s = false ∧ r = .next t) := by
  unfold heldOr at h
  split at h
  · cases h
    exact .inl ⟨‹_›, rfl⟩
  · exact .inr ⟨by simp_all, h⟩

theorem stepWhen_next {m : String} {b : Bool} {s s' t : State} (h : stepWhen m b s s' = .next t) :
    s.powered = true ∧ s.faultCfg = false ∧ b = true ∧ t = s' := by
  obtain ⟨hp, hf, hr⟩ := gated_next h
  split at hr
  · cases hr
    exact ⟨hp, hf, ‹_›, rfl⟩
  · cases hr

theorem stepWhen_ready {s : State} (m : String) (s' : State) (h : rxcReady s = true) :
    stepWhen m true s s' = .next s' := by
  simp only [rxcReady, Bool.and_eq_true, Bool.not_eq_true'] at h
  simp [stepWhen, gated_ready _ h.1 h.2]

theorem macWhen_next {m : String} {b : Bool} {s s' t : State} (h : macWhen m b s s' = .next t) :
    s.powered = true ∧ b = true ∧ t = s' := by
  unfold macWhen at h
  split at h
  · cases h
  · split at h
    · cases h
      exact ⟨by simp_all, ‹_›, rfl⟩
    · cases h

/-! ### Register access -/

theorem takeInterrupt_eq (s : State) :
    takeInterrupt s =
      (s.mac.isr,
        { s with cntIrq := s.cntIrq + 1, mac := { s.mac with isr := 0 }, drPushed := false }) := by
  simp [takeInterrupt, regRead, clearIsr]

/-- The release command through the register interface is `release` (R257). -/
@[simp] theorem regWrite_cmd_rrb (s : State) : regWrite .cmd (cmdRrb.setWidth 32) s = release s := by
  simp [regWrite, cmdRrb]

theorem finishMessage_cons {s : State} {m : RawMsg} {l : List RawMsg} (h : s.mac.rxq = m :: l) :
    finishMessage s =
      { s with mac := { s.mac with rxq := l }, drRemaining := s.drRemaining - 1 } := by
  simp [finishMessage, release, h]

theorem window_cons {s : State} {m : RawMsg} {l : List RawMsg} (h : s.mac.rxq = m :: l) :
    window s = m := by
  simp [window, h]

/-- A read of `MAC.MODE` shows the stored `RM` and `AFM`, whatever the reserved bits read (R33, U4). -/
@[simp] theorem modeRm_modeRead (m free : Byte) : modeRm (modeRead m free) = modeRm m := by
  simp [modeRm, modeRead]

@[simp] theorem modeAfm_modeRead (m free : Byte) : modeAfm (modeRead m free) = modeAfm m := by
  simp [modeAfm, modeRead]

/-- Bit 0 of the word read is `RM`: the test INSTALL makes (R201). -/
@[simp] theorem regRead_mode_rm (s : State) : (regRead .mode s).1[0] = modeRm s.mac.mode := by
  simp [regRead, modeRead, modeRm]

/-- A mode byte's fields read back (R33). -/
@[simp] theorem modeRm_modeByte (rm afm : Bool) : modeRm (modeByte rm afm) = rm := by
  cases rm <;> cases afm <;> decide

@[simp] theorem modeAfm_modeByte (rm afm : Bool) : modeAfm (modeByte rm afm) = afm := by
  cases rm <;> cases afm <;> decide

/-- INSTALL's two ends are told apart by `RM` after the request, whatever the reserved bits read (R201). -/
theorem installBody_eq (s : State) :
    installBody s =
      let s1 := regWrite .mode ((modeByte true s.cfg.filter.single).setWidth 32) (qAllocate s)
      if modeRm s1.mac.mode then installConfigure s1 else raise .bringUpFailure [] (qFree s1) := by
  simp [installBody]

/-- Leaving configuration mode always takes effect (R256). -/
theorem writeMode_operational (afm : Bool) (s : State) :
    writeMode (modeByte false afm) s = { s with mac := { s.mac with mode := modeByte false afm } } := by
  simp [writeMode]

/-- After a declined request `RM` reads 0 (R256). -/
theorem modeRm_declined (b : Byte) : modeRm (b &&& 0xFE) = false := by
  simp [modeRm]

/-- The four code words written in configuration mode leave the whole code (R38). -/
theorem writeCode_eq {s : State} (v : Word32) (h : modeRm s.mac.mode = true) :
    writeCode v s = { s with mac := { s.mac with code := v } } := by
  simp [writeCode, regWrite, h, setFilterByte_all]

theorem writeMask_eq {s : State} (v : Word32) (h : modeRm s.mac.mode = true) :
    writeMask v s = { s with mac := { s.mac with mask := v } } := by
  simp [writeMask, regWrite, h, setFilterByte_all]

theorem writeTiming_eq {s : State} (t : BusTiming) (h : modeRm s.mac.mode = true) :
    writeTiming t s = { s with mac := { s.mac with btr0 := btr0Byte t, btr1 := btr1Byte t } } := by
  simp [writeTiming, regWrite, h]

/-! ### The queue -/

theorem tryPush_full {s : State} (f : Frame) (h : fullP s = true) : tryPush f s = (false, s) := by
  simp [tryPush, h]

theorem tryPush_room {s : State} (f : Frame) (h : fullP s = false) :
    tryPush f s =
      (true, { s with slots := s.slots.set (s.wptr % s.cfg.n) f, wptr := (s.wptr + 1) % ptrMod s }) := by
  simp [tryPush, h]

theorem tryPop_empty {s : State} (h : emptyC s = true) : tryPop s = (none, s) := by
  simp [tryPop, h]

theorem tryPop_some {s : State} (h : emptyC s = false) :
    tryPop s =
      (some (readSlot s (s.rptr % s.cfg.n)), { s with rptr := (s.rptr + 1) % ptrMod s }) := by
  simp [tryPop, h]

/-- Differences of pointers in range: no wrap, or one. -/
theorem subMod_eq {a b m : Nat} (ha : a < m) (hb : b < m) :
    subMod a b m = if b ≤ a then a - b else a + m - b := by
  unfold subMod
  rw [Nat.mod_eq_of_lt hb]
  split
  · rw [show a + (m - b) = (a - b) + m by omega, Nat.add_mod_right, Nat.mod_eq_of_lt (by omega)]
  · rw [Nat.mod_eq_of_lt (by omega)]
    omega

theorem subMod_lt {a b m : Nat} (hm : 0 < m) : subMod a b m < m := Nat.mod_lt _ hm

/-- Every operation on the storage keeps its shape. -/
theorem tryPush_storage (f : Frame) (s : State) : storageWf (tryPush f s).2 = storageWf s := by
  unfold tryPush
  split <;> simp [storageWf]

theorem tryPop_storage (s : State) : storageWf (tryPop s).2 = storageWf s := by
  unfold tryPop
  split <;> simp [storageWf]

theorem resetWith_storage (c : Config) : storageWf (State.resetWith c) = true := by
  simp [storageWf, State.resetWith]

theorem reset_storage : storageWf State.reset = true := resetWith_storage _

/-! ### The table -/

/-- What the search answers lies in its range and names the identifier (R141). -/
theorem search_some {tab : List Entry} {id : Word32} {fuel lo hi k : Nat}
    (h : search tab id fuel lo hi = some k) :
    lo ≤ k ∧ k < hi ∧ ∃ e, tab[k]? = some e ∧ e.id = id := by
  induction fuel generalizing lo hi with
  | zero => cases h
  | succ fuel ih =>
    unfold search at h
    split at h
    · next hlt =>
      split at h
      · cases h
      · next e he =>
        split at h
        · next hid =>
          cases h
          exact ⟨by omega, by omega, e, he, hid⟩
        · split at h
          · obtain ⟨h1, h2, h3⟩ := ih h
            exact ⟨by omega, h2, h3⟩
          · obtain ⟨h1, h2, h3⟩ := ih h
            exact ⟨h1, by omega, h3⟩
    · cases h

theorem lookup_some {tab : List Entry} {id : Word32} {k : Nat} (h : lookup tab id = some k) :
    k < tab.length ∧ ∃ e, tab[k]? = some e ∧ e.id = id :=
  (search_some h).2

/-- What the admission test can do to the table: nothing, or one entry's update (R143). -/
theorem admission_cases (tab : List Entry) (id : Word32) :
    (lookup tab id = none ∧ admission tab id = (false, tab)) ∨
      ∃ k e, lookup tab id = some k ∧ tab[k]? = some e ∧ e.id = id ∧
        admission tab id = ((admitEntry e).1, tab.set k (admitEntry e).2) := by
  cases hk : lookup tab id with
  | none => exact .inl ⟨rfl, by simp [admission, hk]⟩
  | some k =>
    obtain ⟨-, e, he, hid⟩ := lookup_some hk
    exact .inr ⟨k, e, rfl, he, hid, by simp [admission, hk, he]⟩

theorem admission_length (tab : List Entry) (id : Word32) : (admission tab id).2.length = tab.length := by
  obtain ⟨-, h⟩ | ⟨k, e, -, -, -, h⟩ := admission_cases tab id <;> simp [h]

@[simp] theorem admitEntry_id (e : Entry) : (admitEntry e).2.id = e.id := by
  unfold admitEntry
  split
  · rfl
  · split <;> rfl

@[simp] theorem admitEntry_dflt (e : Entry) : (admitEntry e).2.dflt = e.dflt := by
  unfold admitEntry
  split
  · rfl
  · split <;> rfl

@[simp] theorem admitEntry_rate (e : Entry) : (admitEntry e).2.rate = e.rate := by
  unfold admitEntry
  split
  · rfl
  · split <;> rfl

theorem sweepTable_length (k : SweepKind) (i : Nat) (tab : List Entry) :
    (sweepTable k i tab).length = tab.length := by
  cases k <;> simp [sweepTable]

theorem allowInTable_length (tab : List Entry) (id : Word32) :
    (allowInTable tab id).length = tab.length := by
  unfold allowInTable
  split <;> simp

/-! ### Draws and status bits -/

/-- The draw takes the next listed answer, or advances the counter; nothing else changes. -/
theorem drawAck_cases (s : State) :
    (∃ a l, s.resetAcks = a :: l ∧ drawAck s = (a, { s with resetAcks := l })) ∨
      (s.resetAcks = [] ∧ drawAck s = (Config.freeAck s.draws, { s with draws := s.draws + 1 })) := by
  unfold drawAck
  split
  · exact .inl ⟨_, _, ‹_›, rfl⟩
  · exact .inr ⟨‹_›, rfl⟩

theorem release_cases (s : State) :
    (∃ m l, s.mac.rxq = m :: l ∧ release s = { s with mac := { s.mac with rxq := l } }) ∨
      (s.mac.rxq = [] ∧ release s = { s with draws := s.draws + 1 }) := by
  unfold release
  split
  · exact .inl ⟨_, _, ‹_›, rfl⟩
  · exact .inr ⟨‹_›, rfl⟩

/-- Setting a status bit changes `MAC.ISR` or nothing (R258). -/
theorem setStatus_cases (b : Nat) (s : State) :
    (s.mac.ier.getLsbD b = true ∧
        setStatus b s = { s with mac := { s.mac with isr := s.mac.isr ||| (1#8 <<< b) } }) ∨
      (s.mac.ier.getLsbD b = false ∧ setStatus b s = s) := by
  unfold setStatus
  split
  · exact .inl ⟨‹_›, rfl⟩
  · exact .inr ⟨by simp_all, rfl⟩

end Sys2Proof.Machine
end

