-- ==== Sys2Proof/Laws/PerInstr.lean ====
section
/-!
SUPPORT. The statements made per instruction. Family `Form`: the format and the length of an instruction's
encoding are those of its row in spec/opcode_table.json (30_encoding.md R95, R97, R98, R104).
-/

namespace Sys2Proof.Laws.Form

/-- The format of an instruction's row; none for the rows of format STEP. -/
def format (i : Instr) : Option Format :=
  match i with
  | .install | .start | .stop | .uninstall | .recv | .depth | .canDecode _ | .snapshot _ | .command _
  | .denyAll | .allowAll | .allowId _ | .hostopReserved _ => some .hostop
  | .cmdDenyAll | .cmdAllowAll _ | .cmdAllowId _ _ | .cmdInvalid _ => some .rcmd
  | .drEntryRx | .drEntryErr | .drEntryNone => some .isr
  | .drMsgRtr | .drMsgExt | .drMsgStd => some .rxctrl
  | .drCount | .drExit | .sweepStep | .shouldDecode _ | .captureClass _ | .tryPush _ | .tryPop
  | .syncW | .syncR | .macRx _ | .macErr _ | .reset => none

/-- The number of bytes of an instruction's encoding. -/
def size (i : Instr) : Nat :=
  match i with
  | .canDecode _ | .allowId _ => 5
  | .snapshot _ => 2
  | .command b => 1 + b.length
  | .cmdAllowAll _ => 3
  | .cmdAllowId _ _ => 7
  | .cmdInvalid b => b.length
  | _ => 1

/-- The encoding has the row's format and its length; a STEP row has none. -/
def Statement (i : Instr) : Prop :=
  (encode i).map (fun p => (p.1, p.2.length)) = (format i).map (fun f => (f, size i))

theorem install : Statement .install := rfl
theorem start : Statement .start := rfl
theorem stop : Statement .stop := rfl
theorem uninstall : Statement .uninstall := rfl
theorem recv : Statement .recv := rfl
theorem depth : Statement .depth := rfl
theorem canDecode (id : Word32) : Statement (.canDecode id) := rfl
theorem snapshot (sel : CounterSel) : Statement (.snapshot sel) := rfl
theorem command (b : List Byte) : Statement (.command b) := by
  simp [Statement, encode, format, size, Nat.add_comm]
theorem denyAll : Statement .denyAll := rfl
theorem allowAll : Statement .allowAll := rfl
theorem allowId (id : Word32) : Statement (.allowId id) := rfl
theorem hostopReserved (low : BitVec 2) : Statement (.hostopReserved low) := rfl
theorem cmdDenyAll : Statement .cmdDenyAll := rfl
theorem cmdAllowAll (interval : BitVec 16) : Statement (.cmdAllowAll interval) := rfl
theorem cmdAllowId (interval : BitVec 16) (id : Word32) : Statement (.cmdAllowId interval id) := rfl
theorem cmdInvalid (b : List Byte) : Statement (.cmdInvalid b) := rfl
theorem drEntryRx : Statement .drEntryRx := rfl
theorem drEntryErr : Statement .drEntryErr := rfl
theorem drEntryNone : Statement .drEntryNone := rfl
theorem drCount : Statement .drCount := rfl
theorem drMsgRtr : Statement .drMsgRtr := rfl
theorem drMsgExt : Statement .drMsgExt := rfl
theorem drMsgStd : Statement .drMsgStd := rfl
theorem drExit : Statement .drExit := rfl
theorem sweepStep : Statement .sweepStep := rfl
theorem shouldDecode (id : Word32) : Statement (.shouldDecode id) := rfl
theorem captureClass (c : Byte) : Statement (.captureClass c) := rfl
theorem tryPush (f : Frame) : Statement (.tryPush f) := rfl
theorem tryPop : Statement .tryPop := rfl
theorem syncW : Statement .syncW := rfl
theorem syncR : Statement .syncR := rfl
theorem macRx (m : RawMsg) : Statement (.macRx m) := rfl
theorem macErr (b : ErrBit) : Statement (.macErr b) := rfl
theorem reset : Statement .reset := rfl

end Sys2Proof.Laws.Form
end

