-- ==== Sys2Proof/Laws/Step.lean ====
section
/-!
SUPPORT. What one step can do: the instruction `fetch` found runs from the state `fetch` gave, or the turn
passes; and what `fetch` changes of the state, namely the schedule and the host's hold.
-/

namespace Sys2Proof.Machine

/-- A next state comes from an instruction that ran or from a turn that passed. -/
theorem step_next {s t : State} (h : step s = .next t) :
    (∃ i s', fetch s = .run i s' ∧ exec i s' = .next t) ∨ fetch s = .pass t := by
  unfold step at h
  split at h
  · exact .inl ⟨_, _, ‹_›, h⟩
  · cases h
    exact .inr ‹_›
  · cases h
  · cases h

/-- Instructions a step runs. The remote commands run inside COMMAND and the internal functions inside
other rules (R109; log 24). -/
def steppable (i : Instr) : Bool :=
  match i with
  | .cmdDenyAll | .cmdAllowAll _ | .cmdAllowId _ _ | .cmdInvalid _ | .shouldDecode _ | .captureClass _
  | .tryPush _ | .tryPop => false
  | _ => true

theorem decodeSelect_steppable {op : BitVec 4} {l : List Byte} {i : Instr}
    (h : decodeSelect op l = .ok i) : steppable i = true := by
  have hno : ∀ {j : Instr} {l : List Byte}, steppable j = true → noOperand j l = .ok i →
      steppable i = true := by
    intro j l hj h
    unfold noOperand at h
    split at h <;> cases h
    exact hj
  have hid : ∀ {f : Word32 → Instr} {l : List Byte}, (∀ v, steppable (f v) = true) →
      idOperand f l = .ok i → steppable i = true := by
    intro f l hf h
    unfold idOperand at h
    split at h <;> cases h
    exact hf _
  have hsel : ∀ {l : List Byte}, selOperand l = .ok i → steppable i = true := by
    intro l h
    unfold selOperand at h
    split at h
    · split at h <;> cases h
      rfl
    · cases h
    · cases h
  unfold decodeSelect at h
  by_cases h0 : op = 0
  · rw [if_pos h0] at h
    exact hno rfl h
  rw [if_neg h0] at h
  by_cases h1 : op = 1
  · rw [if_pos h1] at h
    exact hno rfl h
  rw [if_neg h1] at h
  by_cases h2 : op = 2
  · rw [if_pos h2] at h
    exact hno rfl h
  rw [if_neg h2] at h
  by_cases h3 : op = 3
  · rw [if_pos h3] at h
    exact hno rfl h
  rw [if_neg h3] at h
  by_cases h4 : op = 4
  · rw [if_pos h4] at h
    exact hno rfl h
  rw [if_neg h4] at h
  by_cases h5 : op = 5
  · rw [if_pos h5] at h
    exact hno rfl h
  rw [if_neg h5] at h
  by_cases h6 : op = 6
  · rw [if_pos h6] at h
    exact hid (fun _ => rfl) h
  rw [if_neg h6] at h
  by_cases h7 : op = 7
  · rw [if_pos h7] at h
    exact hsel h
  rw [if_neg h7] at h
  by_cases h8 : op = 8
  · rw [if_pos h8] at h
    cases h
    rfl
  rw [if_neg h8] at h
  by_cases h9 : op = 9
  · rw [if_pos h9] at h
    exact hno rfl h
  rw [if_neg h9] at h
  by_cases h10 : op = 10
  · rw [if_pos h10] at h
    exact hno rfl h
  rw [if_neg h10] at h
  by_cases h11 : op = 11
  · rw [if_pos h11] at h
    exact hid (fun _ => rfl) h
  rw [if_neg h11] at h
  exact hno rfl h

theorem decode_hostop_steppable {l : List Byte} {i : Instr} (h : decode .hostop l = .ok i) :
    steppable i = true := by
  simp only [decode, decodeHost] at h
  split at h
  · cases h
  · split at h
    · exact decodeSelect_steppable h
    · cases h

theorem drainerInstr_steppable {s : State} {i : Instr} (h : drainerInstr s = some i) :
    steppable i = true := by
  unfold drainerInstr at h
  split at h
  · split at h <;> cases h
    unfold decodeIsr
    split
    · rfl
    · split <;> rfl
  · cases h
    rfl
  · split at h <;> cases h
    · rfl
    · unfold decodeRxctrl
      split
      · rfl
      · split <;> rfl

/-- A state a step may run from: it differs from `s` only in the turns to come and in the host's hold, which
is as it was or lifted while the critical section is free. -/
def RunsFrom (s s' : State) : Prop :=
  s' = { s with agenda := s'.agenda, hostHeld := s'.hostHeld } ∧
    (s'.hostHeld = s.hostHeld ∨ (s'.hostHeld = none ∧ csHeld s = false))

theorem RunsFrom.refl (s : State) : RunsFrom s s := ⟨rfl, .inl rfl⟩

theorem RunsFrom.agenda (s : State) (l : List Turn) : RunsFrom s { s with agenda := l } :=
  ⟨rfl, .inl rfl⟩

/-- What a fetched turn may be, for a state `s`. -/
def Fetched.From (s : State) (f : Fetched) : Prop :=
  match f with
  | .run i s' => steppable i = true ∧ RunsFrom s s'
  | .pass s' => RunsFrom s s'
  | .reject _ => True
  | .stuck r => r = .fatalConfig ∧ s.faultCfg = true

theorem hostOwn_from {s : State} {f : Fetched} (h : hostOwn s = some f) : f.From s := by
  unfold hostOwn at h
  split at h
  · cases h
    exact ⟨rfl, .refl s⟩
  · split at h
    · cases h
    · next op _ =>
      split at h
      · cases h
      · next hc =>
        cases h
        exact ⟨by cases op <;> rfl, rfl, .inr ⟨rfl, by simpa using hc⟩⟩

theorem drainerTurn_from (s : State) : (drainerTurn s).From s := by
  unfold drainerTurn
  split
  · exact ⟨drainerInstr_steppable ‹_›, .refl s⟩
  · exact .refl s

theorem autonomous_from (s : State) : (autonomous s).From s := by
  unfold autonomous
  split
  · exact ⟨drainerInstr_steppable ‹_›, .refl s⟩
  · split
    · exact hostOwn_from ‹_›
    · split
      · exact ⟨rfl, .refl s⟩
      · split
        · exact ⟨rfl, .refl s⟩
        · exact RunsFrom.refl s

theorem ownTurn_from {s s' : State} {f : Fetched} (hs : RunsFrom s s') (hf : f.From s) :
    (ownTurn s' f).From s := by
  have hfault : s'.faultCfg = s.faultCfg := by rw [hs.1]
  unfold ownTurn
  split
  · exact hs
  · split
    · exact ⟨rfl, by rw [← hfault]; exact ‹_›⟩
    · exact hf

theorem hostTurn_from {bytes : List Byte} {s s' : State} (hs : RunsFrom s s') :
    (hostTurn bytes s s').From s := by
  unfold hostTurn
  split
  · split
    · exact hostOwn_from ‹_›
    · exact drainerTurn_from s
  · split
    · exact ⟨decode_hostop_steppable ‹_›, hs⟩
    · trivial

theorem from_agenda {s : State} {l : List Turn} {f : Fetched} (h : f.From { s with agenda := l }) :
    f.From s := by
  cases f <;> exact h

/-- Every fetched turn runs a steppable instruction from a state `RunsFrom` allows, passes, or stops. -/
theorem fetch_from (s : State) : (fetch s).From s := by
  unfold fetch
  split
  · exact ownTurn_from (.refl s) (autonomous_from s)
  · next t l _ =>
    have hl : RunsFrom s { s with agenda := l } := .agenda s l
    cases t with
    | host bytes => exact hostTurn_from hl
    | hostOwn =>
      refine ownTurn_from hl ?_
      cases hf : hostOwn { s with agenda := l } with
      | none => exact hl
      | some f => exact from_agenda (hostOwn_from hf)
    | drainer => exact ownTurn_from hl (from_agenda (drainerTurn_from _))
    | syncW =>
      refine ownTurn_from hl ?_
      split
      · exact ⟨rfl, hl⟩
      · exact hl
    | syncR =>
      refine ownTurn_from hl ?_
      split
      · exact ⟨rfl, hl⟩
      · exact hl
    | macRx m =>
      dsimp only
      split
      · exact ⟨rfl, hl⟩
      · exact hl
    | macErr b =>
      dsimp only
      split
      · exact ⟨rfl, hl⟩
      · exact hl
    | powerOn => exact ⟨rfl, hl⟩

/-- The one lemma a proof over steps starts from: a next state is that of a steppable instruction run from
`s` up to schedule and hold, or is `s` with a turn fewer. -/
theorem step_cases {s t : State} (h : step s = .next t) :
    (∃ i s', steppable i = true ∧ RunsFrom s s' ∧ exec i s' = .next t) ∨ RunsFrom s t := by
  have hf := fetch_from s
  obtain ⟨i, s', he, hx⟩ | he := step_next h
  · rw [he] at hf
    exact .inl ⟨i, s', hf.1, hf.2, hx⟩
  · rw [he] at hf
    exact .inr hf

end Sys2Proof.Machine
end

