-- ==== Sys2Proof/Tests/Slice0.lean ====
section
/-!
SUPPORT. Tests. Expected results are the spec's own: the words of 30_encoding.md and the vectors of
95_test_vectors.md, named at each test. The last section holds one witness for every statement with
hypotheses: a state and operands that meet all of them.
-/

namespace Sys2Proof.Tests

open Sys2Proof Sys2Proof.Machine

/-! ### Small states -/

/-- Profile `P1` of 95_test_vectors.md, `N = 8`. -/
def p1 : Config :=
  { Config.reference with profile := [⟨0x0A5, 3⟩, ⟨0x1F0, 1⟩, ⟨0x3E8, 2⟩, ⟨0x7FF, 0⟩] }

/-- A profile with a duplicate identifier (V-D1). -/
def duplicated : Config := { Config.reference with profile := [⟨0x0A5, 1⟩, ⟨0x0A5, 2⟩] }

def boot : State := State.resetWith p1

/-- After INSTALL with `RESET_ACK` true (R201's example). -/
def installed : State :=
  { boot with
    life := .installed, qAlloc := true, rxpinFloating := true
    mac := { Mac.zero with mode := 0x09, ier := 0xE5, mask := 0xFFFFFFFF } }

/-- After START (R202's example). -/
def live : State :=
  { installed with
    life := .running, running := true, mac := { installed.mac with mode := 0x08 } }

/-- A raw message from its first words, the rest zero (R107). -/
def message (words : List Byte) : RawMsg := Vector.ofFn fun i => words.getD i.val 0

/-- A standard message with identifier `0x0A5` (R94's example). -/
def msgA5 : RawMsg := message [0x02, 0x14, 0xA0, 0x11, 0x22]

/-- One message counted and not yet handled. -/
def draining (m : RawMsg) : State :=
  { live with drPhase := .drain, drRemaining := 1, mac := { live.mac with rxq := [m] } }

/-- A frame with a tag in its first payload byte. -/
def tagged (b : Byte) : Frame := ⟨1, 0x100, #v[b, 0, 0, 0, 0, 0, 0, 0]⟩

/-- Three pushed frames, none visible to the consumer yet. -/
def pushed3 : State :=
  { live with
    wptr := 3, slots := [tagged 1, tagged 2, tagged 3] ++ List.replicate 5 Frame.zero }

/-- The pushed frames are visible. -/
def visible3 : State := { pushed3 with wptrGs := 2 }

/-- The next state of an outcome. -/
def after (r : Result) : Option State :=
  match r with
  | .next s => some s
  | .fault _ => none
  | .refused _ => none

/-- The refusal of an outcome. -/
def refusal (r : Result) : Option Refusal :=
  match r with
  | .next _ => none
  | .fault _ => none
  | .refused e => some e

/-- The fault of an outcome. -/
def stop (r : Result) : Option Fault :=
  match r with
  | .next _ => none
  | .fault e => some e
  | .refused _ => none

/-! ### Well-formedness -/

/-- Bytes of a legal command are no CMD.INVALID (R95); the empty command is (R105 a). -/
theorem test_wellformed_invalid :
    (Instr.cmdInvalid [0x00]).wellFormed = false ∧
      (Instr.cmdInvalid [0x01, 0xFF, 0xFF]).wellFormed = false ∧
      (Instr.cmdInvalid [0x02, 0, 0, 0, 0, 0, 0xA5]).wellFormed = false ∧
      (Instr.cmdInvalid []).wellFormed = true ∧ (Instr.cmdInvalid [0x00, 0x00]).wellFormed = true := by
  decide

/-! ### Decoding, from the encoding tables -/

/-- HOSTOP select codes (R104) without operands. -/
theorem test_decode_hostop :
    decode .hostop [0b0000] = .ok .install ∧ decode .hostop [0b0001] = .ok .start ∧
      decode .hostop [0b0010] = .ok .stop ∧ decode .hostop [0b0011] = .ok .uninstall ∧
      decode .hostop [0b0100] = .ok .recv ∧ decode .hostop [0b0101] = .ok .depth ∧
      decode .hostop [0b1001] = .ok .denyAll ∧ decode .hostop [0b1010] = .ok .allowAll := by decide

/-- HOSTOP with operands; the four values of `sel` (R104), the reserved codes (R105 d). -/
theorem test_decode_hostop_operands :
    decode .hostop [0b0110, 0xF0, 0x01, 0x00, 0x00] = .ok (.canDecode 0x1F0) ∧
      decode .hostop [0b1011, 0x78, 0x56, 0x34, 0x12] = .ok (.allowId 0x12345678) ∧
      decode .hostop [0b0111, 0] = .ok (.snapshot .irq) ∧
      decode .hostop [0b0111, 1] = .ok (.snapshot .err) ∧
      decode .hostop [0b0111, 2] = .ok (.snapshot .admitted) ∧
      decode .hostop [0b0111, 3] = .ok (.snapshot .forwarded) ∧
      decode .hostop [0b1000] = .ok (.command []) ∧
      decode .hostop [0b1000, 0x02, 0x00] = .ok (.command [0x02, 0x00]) ∧
      decode .hostop [0b1101] = .ok (.hostopReserved 1) ∧
      decode .hostop [0b1110] = .ok (.hostopReserved 2) := by decide

/-- The byte form's rejections, by name (log 4). -/
theorem test_decode_rejects :
    decode .hostop [] = .reject .truncated ∧ decode .hostop [0x06, 0xA5] = .reject .truncated ∧
      decode .hostop [0x00, 0x00] = .reject .trailing ∧ decode .hostop [0x10] = .reject .highBits ∧
      decode .hostop [0x07, 0x04] = .reject .highBits ∧ decode .isr [] = .reject .truncated := by decide

/-- V-C1: the commands. -/
theorem test_decode_rcmd :
    decodeRcmd [0x00] = .cmdDenyAll ∧ decodeRcmd [0x01, 0x00, 0x64] = .cmdAllowAll 0x0064 ∧
      decodeRcmd [0x02, 0x00, 0x00, 0x00, 0x00, 0x00, 0xA5] = .cmdAllowId 0x0000 0x000000A5 ∧
      decodeRcmd [0x02, 0x12, 0x34, 0x00, 0x00, 0x03, 0xE8] = .cmdAllowId 0x1234 0x000003E8 := by decide

/-- V-C1: every invalid row. -/
theorem test_decode_rcmd_invalid :
    ∀ b ∈ ([[], [0, 0], [0, 0, 0], [1], [1, 0], [1, 0, 0, 0, 0, 0, 0], [2], [2, 0, 0, 0, 0, 0xA5],
        [2, 0, 0, 0, 0, 0, 0, 0xA5], [3], [0xFF, 0, 0]] : List (List Byte)),
      decodeRcmd b = .cmdInvalid b := by decide

/-- V-I1: the status values. -/
theorem test_decode_isr :
    (∀ v ∈ ([0x01, 0x05, 0x81, 0xE5, 0x03, 0x1B] : List Byte), decodeIsr v = .drEntryRx) ∧
      (∀ v ∈ ([0x04, 0x20, 0x40, 0x80, 0x60, 0xE4] : List Byte), decodeIsr v = .drEntryErr) ∧
      ∀ v ∈ ([0x02, 0x08, 0x10, 0x1A] : List Byte), decodeIsr v = .drEntryNone := by decide

/-- V-F1: the control bytes. -/
theorem test_decode_rxctrl :
    (∀ c ∈ ([0x00, 0x08, 0x0F, 0x30, 0x3F] : List Byte), decodeRxctrl c = .drMsgStd) ∧
      (∀ c ∈ ([0x40, 0x42, 0x7F, 0xC0, 0xFF] : List Byte), decodeRxctrl c = .drMsgRtr) ∧
      ∀ c ∈ ([0x80, 0x88, 0xBF] : List Byte), decodeRxctrl c = .drMsgExt := by decide

/-- What the encoder writes is what the tables say. -/
theorem test_encode :
    encode .recv = some (.hostop, [0x04]) ∧
      encode (.allowId 0x3E8) = some (.hostop, [0x0B, 0xE8, 0x03, 0x00, 0x00]) ∧
      encode (.hostopReserved 3) = some (.hostop, [0x0F]) ∧
      encode (.cmdAllowAll 0x0064) = some (.rcmd, [0x01, 0x00, 0x64]) ∧
      encode (.cmdAllowId 0x1234 0x3E8) = some (.rcmd, [0x02, 0x12, 0x34, 0x00, 0x00, 0x03, 0xE8]) ∧
      encode .drExit = none := by decide

/-- Words of the opcode table. -/
theorem test_table_words :
    decodeTableWord 8 0x4 = some .recv ∧ decodeTableWord 8 0xB = some (.allowId 0) ∧
      decodeTableWord 8 0xC = some (.hostopReserved 0) ∧ decodeTableWord 8 0x40 = some .drMsgRtr ∧
      decodeTableWord 8 0x80 = some .drMsgExt ∧
      decodeTableWord 56 0xE8030000000002 = some (.cmdAllowId 0 0x3E8) := by decide

/-! ### Pure functions -/

/-- V-F2: the identifier words. -/
theorem test_identifier :
    assembleId 0x14 0xA0 = 0x0A5 ∧ assembleId 0x00 0xE0 = 0x007 ∧ assembleId 0x01 0x00 = 0x008 ∧
      assembleId 0xAA 0xA0 = 0x555 ∧ assembleId 0xFF 0xE0 = 0x7FF ∧ assembleId 0x3E 0x1F = 0x1F0 := by decide

/-- V-F3: a short frame; reserved and ignored bits dropped. -/
theorem test_frame_bytes :
    frameBytes (frameBuild msgA5) =
        [0x02, 0xA5, 0x00, 0x00, 0x00, 0x11, 0x22, 0, 0, 0, 0, 0, 0] ∧
      frameBytes (frameBuild (message [0x31, 0x3E, 0x1F, 0xAA])) =
        [0x01, 0xF0, 0x01, 0x00, 0x00, 0xAA, 0, 0, 0, 0, 0, 0, 0] := by decide

/-- V-F3: length 15 clamped to 8, the last two words never read. -/
theorem test_frame_clamped :
    frameBytes (frameBuild (message
        [0x0F, 0x7D, 0x00, 0xDE, 0xAD, 0xBE, 0xEF, 0x01, 0x02, 0x03, 0x04, 0x09, 0x09])) =
      [0x08, 0xE8, 0x03, 0x00, 0x00, 0xDE, 0xAD, 0xBE, 0xEF, 0x01, 0x02, 0x03, 0x04] := by decide

/-- V-Q1: the Gray codes of 0 to 15 and their inverse. -/
theorem test_gray :
    (List.range 16).map gray =
        [0b0000, 0b0001, 0b0011, 0b0010, 0b0110, 0b0111, 0b0101, 0b0100, 0b1100, 0b1101, 0b1111, 0b1110,
          0b1010, 0b1011, 0b1001, 0b1000] ∧
      ∀ b ∈ List.range 16, ungray 4 (gray b) = b := by decide

/-- V-D1: which configurations are well formed. -/
theorem test_config :
    p1.wf = true ∧ duplicated.wf = false ∧ ({ p1 with profile := [] } : Config).wf = true ∧
      ({ p1 with profile := [⟨0x1F0, 1⟩, ⟨0x0A5, 1⟩] } : Config).wf = false ∧
      ({ p1 with n := 6 } : Config).wf = false ∧ ({ p1 with n := 1 } : Config).wf = false ∧
      p1.pw = 4 ∧ p1.inRange = true := by decide

/-- R5: accept-all passes everything; otherwise the parameter answers. -/
theorem test_acf_match :
    ({ p1 with acfRejects := [(⟨0, 0xFFFFFFFF, true⟩, msgA5), (⟨0, 0, true⟩, msgA5)] } : Config).acfMatch
        ⟨0, 0xFFFFFFFF, true⟩ msgA5 = true ∧
      ({ p1 with acfRejects := [(⟨0, 0, true⟩, msgA5)] } : Config).acfMatch ⟨0, 0, true⟩ msgA5 = false ∧
      p1.acfMatch ⟨0, 0, true⟩ msgA5 = true := by decide

/-- The filter's register words, most significant first (R38). -/
theorem test_filter_bytes :
    (writeCode 0x12345678 installed).mac.code = 0x12345678 ∧
      filterByte 0x12345678 0 = 0x12 ∧ filterByte 0x12345678 3 = 0x78 ∧
      btr0Byte ⟨0x3F, 1, 0, 0, false⟩ = 0x7F ∧ btr1Byte ⟨0, 0, 0xA, 5, true⟩ = 0xDA := by decide

/-! ### The host's operations -/

/-- V-L1: INSTALL with `RESET_ACK` true. -/
theorem test_install :
    (after (exec .install { boot with resetAcks := [true] })).map
        (fun t => (t.life, t.mac.ier, modeRm t.mac.mode, t.qAlloc)) =
        some (.installed, 0xE5, true, true) ∧
      (after (exec .install { boot with resetAcks := [true] })).map
        (fun t => (t.running, t.rxpinFloating, t.ret, t.mac.isr)) =
        some (false, true, .bool true, 0) := by
  simp only [exec, execInstall, installBody_eq]
  decide

/-- V-L1: INSTALL with `RESET_ACK` false. -/
theorem test_install_declined :
    (after (exec .install { boot with resetAcks := [false] })).map
        (fun t => (t.life, t.qAlloc, t.rxpinFloating, t.ret)) =
      some (.uninstalled, false, false, .bool false) := by
  simp [exec, execInstall, hostGated, gated, hostBusy, heldOr, csHeld, boot, State.resetWith, installBody_eq,
    show ∀ b : Byte, modeRm (b &&& 254#8) = false from modeRm_declined, regWrite, writeMode, drawAck, qAllocate,
    qClear, qFree, raise, setRet, after, show p1.wf = true by decide]

/-- V-L1: START. -/
theorem test_start :
    (after (exec .start { installed with wptr := 5 })).map
        (fun t => (t.life, t.running, t.mac.mode, t.wptr)) = some (.running, true, 0x08, 0) := by decide

/-- V-L1: START is refused at reset. -/
theorem test_start_refused : refusal (exec .start boot) = some (.wrongState "START") := by decide

/-- V-L1: STOP, from `Running` only; `running` stays. -/
theorem test_stop :
    (after (exec .stop live)).map (fun t => (t.life, t.running)) = some (.stopped, true) ∧
      refusal (exec .stop installed) = some (.wrongState "STOP") := by decide

/-- V-L1: UNINSTALL. -/
theorem test_uninstall :
    (after (exec .uninstall live)).map (fun t => (t.life, t.mac.ier, t.qAlloc, t.running, t.mac.mode)) =
      some (.uninstalled, 0, false, false, 0x08) := by decide

/-- R72: UNINSTALL issued inside an invocation is held, and runs once DR.EXIT has freed the section. -/
theorem test_uninstall_held :
    (after (exec .uninstall (draining msgA5))).map (fun t => (t.life, t.hostHeld)) =
        some (.running, some .uninstall) ∧
      (after (step { live with hostHeld := some .uninstall })).map (fun t => (t.life, t.hostHeld)) =
        some (.uninstalled, none) := by decide

/-- R174's example: nothing visible before SYNC_W. -/
theorem test_recv_none :
    (after (exec .recv pushed3)).map (fun t => (t.ret, t.rptr, t.sink)) =
      some (.frame none, 0, []) := by decide

/-- R205's example, on the first of three frames. -/
theorem test_recv :
    (after (exec .recv visible3)).map (fun t => (t.rptr, t.sink, t.cntForwarded)) =
      some (1, [[0x01, 0x00, 0x01, 0x00, 0x00, 0x01, 0, 0, 0, 0, 0, 0, 0]], 1) := by decide

/-- R177's example. -/
theorem test_depth :
    (after (exec .depth { visible3 with rptr := 1 })).map (fun t => t.ret) = some (.depth 2) := by decide

/-- V-D2: membership, rate 0 included. -/
theorem test_can_decode :
    (after (exec (.canDecode 0x7FF) boot)).map (fun t => t.ret) = some (.bool true) ∧
      (after (exec (.canDecode 0x999) boot)).map (fun t => t.ret) = some (.bool false) := by decide

/-- V-S1: one counter returned and zeroed, the others left. -/
theorem test_snapshot :
    (after (exec (.snapshot .err) { boot with cntIrq := 7, cntErr := 2, cntAdmitted := 3 })).map
        (fun t => (t.ret, t.cntIrq, t.cntErr, t.cntAdmitted)) = some (.count 2, 7, 0, 3) := by decide

/-- V-L1: a reserved code is refused. -/
theorem test_reserved : refusal (exec (.hostopReserved 0) boot) = some (.reservedSelect 0xC) := by decide

/-! ### The decoder -/

/-- R144: a deny starts at entry 0. -/
theorem test_deny_all :
    (after (exec .denyAll { boot with swK := 4 })).map (fun t => (t.swKind, t.swK)) =
      some (.deny, 0) := by decide

theorem test_allow_all :
    (after (exec .allowAll boot)).map (fun t => (t.swKind, t.swK)) = some (.allow, 0) := by decide

/-- The table of V-D4 after the deny. -/
def denied : State :=
  { boot with tab := [⟨0x0A5, 3, 0, 1⟩, ⟨0x1F0, 1, 0, 0⟩, ⟨0x3E8, 2, 0, 1⟩, ⟨0x7FF, 0, 0, 0⟩] }

/-- V-D4: ALLOW_ID restores one entry and zeroes its count. -/
theorem test_allow_id :
    (after (exec (.allowId 0x3E8) denied)).map (fun t => t.tab.map fun e => (e.rate, e.count)) =
      some [(0, 1), (0, 0), (2, 0), (0, 0)] := by decide

/-- V-D4: an unwatched identifier, and an entry whose default is 0. -/
theorem test_allow_id_nothing :
    (after (exec (.allowId 0x999) denied)).map (fun t => t.tab) = some denied.tab ∧
      (after (exec (.allowId 0x7FF) denied)).map (fun t => t.tab) = some denied.tab := by decide

/-- V-C1 through COMMAND. -/
theorem test_command :
    (after (exec (.command [0x02, 0x12, 0x34, 0x00, 0x00, 0x03, 0xE8]) denied)).map
        (fun t => t.tab.map fun e => e.rate) = some [0, 0, 2, 0] ∧
      (after (exec (.command [0x01, 0x00]) denied)).map (fun t => t.log) =
        some [⟨.badCommand, some 0x01, 2⟩] := by decide

theorem test_cmd_deny_all :
    (after (exec .cmdDenyAll boot)).map (fun t => t.swKind) = some .deny := by decide

/-- R153: the interval has no effect. -/
theorem test_cmd_allow_all :
    after (exec (.cmdAllowAll 0x0064) boot) = after (exec (.cmdAllowAll 0xFFFF) boot) ∧
      (after (exec (.cmdAllowAll 0x0064) boot)).map (fun t => t.swKind) = some .allow := by decide

theorem test_cmd_allow_id :
    (after (exec (.cmdAllowId 0 0x0A5) denied)).map (fun t => t.tab.map fun e => (e.rate, e.count)) =
      some [(3, 0), (0, 0), (0, 1), (0, 0)] := by decide

/-- V-C1: the empty command. -/
theorem test_cmd_invalid :
    (after (exec (.cmdInvalid []) boot)).map (fun t => (t.log, t.tab)) =
      some ([⟨.badCommand, none, 0⟩], boot.tab) := by decide

/-- R147: a deny leaves the count; the last step ends the sweep. -/
theorem test_sweep_step :
    (after (exec .sweepStep { boot with
        tab := [⟨0x0A5, 3, 3, 2⟩, ⟨0x1F0, 1, 1, 0⟩], swKind := .deny })).map
        (fun t => (t.tab.map (fun e => (e.rate, e.count)), t.swK, t.swKind)) =
      some ([(0, 2), (1, 0)], 1, .deny) := by decide

theorem test_sweep_step_last :
    (after (exec .sweepStep { denied with swKind := .allow, swK := 3 })).map
        (fun t => (t.swK, t.swKind, t.tab.map fun e => e.rate)) = some (4, .none, [0, 0, 0, 0]) := by decide

/-- V-D3: three calls on `0x0A5` answer false, false, true. -/
theorem test_should_decode :
    (admitMany 0x0A5 7 boot.tab).1 = [false, false, true, false, false, true, false] ∧
      (admitMany 0x7FF 3 boot.tab).1 = [false, false, false] ∧
      (admitMany 0x999 2 boot.tab).1 = [false, false] := by decide

theorem test_should_decode_step :
    (after (exec (.shouldDecode 0x0A5) boot)).map (fun t => (t.ret, t.tab.map fun e => e.count)) =
      some (.bool false, [1, 0, 0, 0]) := by decide

/-- V-F1. -/
theorem test_capture_class :
    (after (exec (.captureClass 0xC0) boot)).map (fun t => t.ret) = some (.captured .remote) ∧
      (after (exec (.captureClass 0xBF) boot)).map (fun t => t.ret) = some (.captured .extended) ∧
      (after (exec (.captureClass 0x3F) boot)).map (fun t => t.ret) =
        some (.captured .standardData) := by decide

/-! ### The drainer -/

/-- R243's first example; V-I1 `0x05`: the error bit is lost. -/
theorem test_entry_rx :
    (after (exec .drEntryRx { live with mac := { live.mac with isr := 0x05 }, drPushed := true })).map
        (fun t => (t.cntIrq, t.cntErr, t.mac.isr, t.drPhase, t.drPushed)) =
      some (1, 0, 0, .count, false) := by decide

/-- R243's second example; V-S1: the counter wraps. -/
theorem test_entry_err :
    (after (exec .drEntryErr { live with
        mac := { live.mac with isr := 0xA0 }, cntIrq := 0xFFFFFFFF })).map
        (fun t => (t.cntIrq, t.cntErr, t.mac.isr, t.drPhase)) = some (0, 1, 0, .idle) := by decide

theorem test_entry_none :
    (after (exec .drEntryNone { live with mac := { live.mac with isr := 0x1A } })).map
        (fun t => (t.cntIrq, t.cntErr, t.mac.isr, t.drPhase)) = some (1, 0, 0, .idle) := by decide

/-- R263's example. -/
theorem test_count :
    (after (exec .drCount { live with
        drPhase := .count, mac := { live.mac with rxq := [msgA5, msgA5, msgA5] } })).map
        (fun t => (t.drRemaining, t.drPhase)) = some (3, .drain) := by decide

theorem test_msg_rtr :
    (after (exec .drMsgRtr (draining (message [0x48])))).map
        (fun t => (t.mac.rxq, t.drRemaining, t.cntAdmitted)) = some ([], 0, 0) := by decide

/-- R135: no count moves for an extended message, whatever its words. -/
theorem test_msg_ext :
    (after (exec .drMsgExt (draining (message [0x81, 0x14, 0xA0])))).map
        (fun t => (t.mac.rxq, t.drRemaining, t.tab)) = some ([], 0, boot.tab) := by decide

/-- R245's example: the third message on `0x0A5` is pushed and counted. -/
theorem test_msg_std :
    (after (exec .drMsgStd { draining msgA5 with tab := [⟨0x0A5, 3, 3, 2⟩] })).map
        (fun t => (t.tab.map (fun e => e.count), t.wptr, t.slots.head?)) =
        some ([0], 1, some (frameBuild msgA5)) ∧
      (after (exec .drMsgStd { draining msgA5 with tab := [⟨0x0A5, 3, 3, 2⟩] })).map
        (fun t => (t.cntAdmitted, t.drPushed, t.mac.rxq)) = some (1, true, []) := by decide

/-- R248 X4: the queue seen full drops the frame, and the admission is still counted. -/
theorem test_msg_std_overflow :
    (after (exec .drMsgStd { draining msgA5 with tab := [⟨0x0A5, 1, 1, 0⟩], wptr := 8 })).map
        (fun t => (t.wptr, t.cntAdmitted, t.drPushed, t.mac.rxq)) = some (8, 1, false, []) ∧
      (after (exec .drMsgStd { draining msgA5 with tab := [⟨0x0A5, 1, 1, 0⟩], wptr := 8 })).map
        (fun t => t.slots) = some boot.slots := by decide

/-- R246: a reschedule only after a push. -/
theorem test_exit :
    (after (exec .drExit { live with drPhase := .drain, drPushed := true })).map
        (fun t => (t.drPhase, t.resched)) = some (.idle, 1) ∧
      (after (exec .drExit { live with drPhase := .drain })).map (fun t => t.resched) =
        some 0 := by decide

/-! ### The queue and its synchronisers -/

/-- R173's two examples. -/
theorem test_try_push :
    (after (exec (.tryPush (tagged 9)) { live with wptr := 8 })).map (fun t => (t.ret, t.wptr)) =
        some (.bool false, 8) ∧
      (after (exec (.tryPush (tagged 9)) { live with wptr := 8, rptrGs := 1 })).map
        (fun t => (t.ret, t.wptr, t.slots.head?)) = some (.bool true, 9, some (tagged 9)) := by decide

/-- R174's example. -/
theorem test_try_pop :
    (after (exec .tryPop pushed3)).map (fun t => (t.ret, t.rptr)) = some (.frame none, 0) ∧
      (after (exec .tryPop visible3)).map (fun t => (t.ret, t.rptr)) =
        some (.frame (some (tagged 1)), 1) := by decide

/-- R175's example. -/
theorem test_sync_w :
    (after (exec .syncW { live with wptr := 5 })).map (fun t => t.wptrGs) = some 0b0111 := by decide

/-- R176's example. -/
theorem test_sync_r :
    (after (exec .syncR { live with rptr := 9 })).map (fun t => t.rptrGs) = some 0b1101 := by decide

/-! ### The environment -/

/-- R254: appended and flagged; after UNINSTALL's mask, appended without a flag (program P-E). -/
theorem test_mac_rx :
    (after (exec (.macRx msgA5) live)).map (fun t => (t.mac.rxq, t.mac.isr)) = some ([msgA5], 0x01) ∧
      (after (exec (.macRx msgA5) { live with mac := { live.mac with ier := 0 } })).map
        (fun t => (t.mac.rxq, t.mac.isr)) = some ([msgA5], 0) := by decide

/-- R254: a full FIFO loses the message. -/
theorem test_mac_rx_full :
    (after (exec (.macRx msgA5) { live with
        cfg := { p1 with rxfifoMsgs := 1 }, mac := { live.mac with rxq := [msgA5] } })).map
        (fun t => (t.mac.rxq.length, t.mac.isr)) = some (1, 0) := by decide

/-- Program P-D: two error bits latch. -/
theorem test_mac_err :
    (after (exec (.macErr .arbLost) { live with mac := { live.mac with isr := 0x20 } })).map
        (fun t => t.mac.isr) = some 0x60 := by decide

/-- R291, V-D1: the fault bit, and the table at its defaults. -/
theorem test_reset :
    (after (exec .reset { boot with powered := false, tab := [] })).map
        (fun t => (t.powered, t.faultCfg, t.tab.map fun e => (e.id, e.rate, e.count))) =
      some (true, false, [(0x0A5, 3, 0), (0x1F0, 1, 0), (0x3E8, 2, 0), (0x7FF, 0, 0)]) ∧
      (after (exec .reset { State.resetWith duplicated with powered := false })).map
        (fun t => t.faultCfg) = some true := by decide

theorem test_reset_once : refusal (exec .reset boot) = some .alreadyReset := by decide

/-! ### Steps -/

/-- One step of each kind of turn. -/
theorem test_step_turns :
    (after (step { installed with agenda := [.host [0x01]] })).map (fun t => (t.life, t.agenda)) =
        some (.running, []) ∧
      (after (step { live with agenda := [.macRx msgA5] })).map (fun t => t.mac.isr) = some 1 ∧
      (after (step { installed with agenda := [.macRx msgA5] })).map (fun t => (t.mac.rxq, t.agenda)) =
        some ([], []) ∧
      (after (step { live with wptr := 5, agenda := [.syncW] })).map (fun t => t.wptrGs) = some 7 := by decide

/-- R49: a fatal configuration stops the block. -/
theorem test_step_fatal :
    stop (step { State.resetWith duplicated with agenda := [.host [0x00]] }) = some .fatalConfig ∧
      stop (step (State.resetWith duplicated)) = some .fatalConfig := by decide

/-- R207: an operation issued during a sweep waits, and the sweep moves on. -/
theorem test_step_waits :
    (after (step { boot with swKind := .deny, agenda := [.host [0x0A]] })).map
        (fun t => (t.swK, t.swKind, t.agenda)) = some (1, .deny, [.host [0x0A]]) := by decide

/-- The table's words run as the first instruction after reset. -/
theorem test_placed_words :
    (after (step (State.reset.withFetchWord 8 0x9))).map (fun t => t.swKind) = some .deny ∧
      (after (step (State.reset.withFetchWord 8 0x40))).map (fun t => (t.mac.rxq, t.drRemaining)) =
        some ([], 0) ∧
      (after (step (State.reset.withFetchWord 8 0x80))).map (fun t => t.drRemaining) = some 0 := by decide

/-! ### Witnesses: every statement's hypotheses can be met

Named `test_witness_<statement>`, with a suffix where clauses have their own hypotheses. -/

theorem test_witness_DecodeOfEncodeIsIdentity :
    (Instr.allowId 0xFFFFFFFF).wellFormed = true ∧
      encode (.allowId 0xFFFFFFFF) = some (.hostop, [0x0B, 0xFF, 0xFF, 0xFF, 0xFF]) ∧
      (Instr.cmdInvalid []).wellFormed = true ∧ encode (.cmdInvalid []) = some (.rcmd, []) := by decide

theorem test_witness_RemoteCommandForms :
    ∀ b ∈ ([[], [0x00, 0x00], [0x01, 0x00], [0x02], [0x03]] : List (List Byte)), ∀ c l, b = c :: l →
      ¬(c = 0x00 ∧ l.length = 0) ∧ ¬(c = 0x01 ∧ l.length = 2) ∧ ¬(c = 0x02 ∧ l.length = 6) := by
  intro b hb c l h
  subst h
  simp only [List.mem_cons, List.cons.injEq, List.not_mem_nil, or_false, reduceCtorEq, false_or] at hb
  rcases hb with ⟨rfl, rfl⟩ | ⟨rfl, rfl⟩ | ⟨rfl, rfl⟩ | ⟨rfl, rfl⟩ <;> decide

theorem test_witness_StatusSelectsBranch :
    (0x05 : Byte) &&& 0x01 = 0x01 ∧ ((0x60 : Byte) &&& 0x01 = 0x00 ∧ (0x60 : Byte) &&& 0xE4 ≠ 0) ∧
      (0x1A : Byte) &&& 0xE5 = 0x00 := by decide

theorem test_witness_ControlByteSelectsBranch :
    (0xC0 : Byte) &&& 0x40 = 0x40 ∧ (0xBF : Byte) &&& 0xC0 = 0x80 ∧ (0x3F : Byte) &&& 0xC0 = 0x00 ∧
      rxcReady boot = true := by decide

/-- The unused indices at the edges of their ranges. -/
theorem test_witness_RegisterMapIsR42 :
    ∀ p ∈ [(true, 2), (false, 5), (true, 8), (false, 15), (true, 24), (true, 28), (false, 30)],
      p.2 = 2 ∨ p.2 = 5 ∨ (8 ≤ p.2 ∧ p.2 < 16) ∨ 30 ≤ p.2 ∨ (p.1 = true ∧ 24 ≤ p.2 ∧ p.2 < 29) := by
  decide

theorem test_witness_StepRunsHostOperation :
    ({ live with agenda := [.host [0x04]] } : State).agenda = .host [0x04] :: [] ∧
      hostBusy { live with agenda := [.host [0x04]] } = false ∧ decode .hostop [0x04] = .ok .recv ∧
      decode .hostop [0x10] = .reject .highBits := by decide

theorem test_witness_StepRunsDrainer :
    (rxcReady live = true ∧ live.drPhase = .idle ∧ entryReady live = false) ∧
      (rxcReady live = true ∧ entryReady { live with mac := { live.mac with isr := 1 } } = true) ∧
      ({ live with drPhase := .count } : State).drPhase = .count ∧
      ({ live with drPhase := .drain } : State).drRemaining = 0 ∧
      (draining msgA5).drPhase = .drain ∧ (draining msgA5).drRemaining ≠ 0 ∧
      ({ live with agenda := [.drainer] } : State).agenda = .drainer :: [] := by decide

/-- Every kind of turn; before RESET and after; a sweep, a held operation in and out of the section, neither. -/
theorem test_witness_StepRunsOtherAgents :
    ({ boot with powered := false, agenda := [.powerOn] } : State).agenda = .powerOn :: [] ∧
      (({ boot with powered := false, agenda := [.drainer] } : State).powered = false ∧
        ({ boot with powered := false, agenda := [.drainer] } : State).agenda = .drainer :: []) ∧
      ({ live with agenda := [.macRx msgA5, .macErr .busErr] } : State).agenda =
        .macRx msgA5 :: [.macErr .busErr] ∧
      (rxcReady { live with agenda := [.syncW, .syncR] } = true ∧
        ({ live with agenda := [.syncW, .syncR] } : State).agenda = .syncW :: [.syncR]) ∧
      (rxcReady { live with agenda := [.hostOwn], swKind := .deny } = true ∧
        ({ live with agenda := [.hostOwn], swKind := .deny } : State).swKind ≠ .none) ∧
      (({ live with agenda := [.hostOwn] } : State).agenda = .hostOwn :: [] ∧ live.swKind = .none ∧
        live.hostHeld = none) ∧
      (rxcReady { draining msgA5 with agenda := [.hostOwn], hostHeld := some .start } = true ∧
        csHeld { draining msgA5 with agenda := [.hostOwn], hostHeld := some .start } = true ∧
        csHeld { live with agenda := [.hostOwn], hostHeld := some .start } = false) := by decide

/-- R290: the power-on turn runs RESET where it is enabled. -/
theorem test_step_power_on :
    (after (step { boot with powered := false, cntIrq := 7, agenda := [.powerOn, .drainer] })).map
        (fun t => (t.powered, t.cntIrq, t.agenda)) = some (true, 0, [.drainer]) := by decide

theorem test_witness_HostFinishesFirst :
    ({ live with agenda := [.host [0x04]], swKind := .allow } : State).swKind ≠ .none ∧
      (live.swKind = .none ∧ ({ live with hostHeld := some .start } : State).hostHeld = some .start ∧
        csHeld { live with hostHeld := some .start } = false) ∧
      (csHeld (draining msgA5) = true ∧ drainerInstr (draining msgA5) = some .drMsgStd) := by decide

theorem test_witness_FatalConfigStops :
    (State.resetWith duplicated).powered = true ∧ (State.resetWith duplicated).faultCfg = true ∧
      (State.resetWith duplicated).agenda = [] ∧
      (∀ low, Instr.recv ≠ .hostopReserved low) ∧ (∀ m, Instr.recv ≠ .macRx m) ∧
      (∀ b, Instr.recv ≠ .macErr b) ∧ Instr.recv ≠ .reset ∧
      ({ State.resetWith duplicated with agenda := [.host [0x04]] } : State).agenda = .host [0x04] :: [] ∧
      decode .hostop [0x04] = .ok .recv := by
  refine ⟨by decide, by decide, by decide, ?_, ?_, ?_, by decide, by decide, by decide⟩ <;> intro _ h <;>
    cases h

theorem test_witness_RefusedOperations :
    (hostReady live = true ∧ live.life ≠ .uninstalled ∧ live.life ≠ .installed ∧ live.life ≠ .stopped) ∧
      (hostReady boot = true ∧ boot.life ≠ .running ∧ boot.life = .uninstalled ∧ boot.qAlloc = false) := by
  decide

theorem test_witness_InstallConfigures :
    hostReady { boot with resetAcks := [true] } = true ∧
      ({ boot with resetAcks := [true] } : State).life = .uninstalled ∧
      csHeld { boot with resetAcks := [true] } = false ∧
      (drawAck { boot with resetAcks := [true] }).1 = true := by decide

theorem test_witness_InstallFails :
    hostReady { boot with resetAcks := [false] } = true ∧
      ({ boot with resetAcks := [false] } : State).life = .uninstalled ∧
      csHeld { boot with resetAcks := [false] } = false ∧
      (drawAck { boot with resetAcks := [false] }).1 = false := by decide

/-- From `Installed` and from `Stopped`. -/
theorem test_witness_StartEffect :
    (hostReady installed = true ∧ installed.life = .installed ∧ csHeld installed = false) ∧
      (hostReady { live with life := .stopped } = true ∧
        ({ live with life := .stopped } : State).life = .stopped ∧
        csHeld { live with life := .stopped } = false) := by decide

theorem test_witness_StopEffect :
    hostReady live = true ∧ hostReady (draining msgA5) = true ∧ hostReady boot = true := by decide

theorem test_witness_UninstallEffect :
    hostReady live = true ∧ live.life ≠ .uninstalled ∧ csHeld live = false := by decide

theorem test_witness_CriticalSectionHolds :
    (csHeld { boot with drPhase := .count } = true ∧ hostReady { boot with drPhase := .count } = true ∧
        ({ boot with drPhase := .count } : State).life = .uninstalled) ∧
      (csHeld { draining msgA5 with life := .stopped } = true ∧
        hostReady { draining msgA5 with life := .stopped } = true ∧
        ({ draining msgA5 with life := .stopped } : State).life = .stopped) ∧
      (rxcReady { draining msgA5 with hostHeld := some .start } = true ∧
        ({ draining msgA5 with hostHeld := some .start } : State).hostHeld.isSome = true) ∧
      (rxcReady { live with swKind := .deny } = true ∧
        ({ live with swKind := .deny } : State).swKind ≠ .none) ∧
      hostRow .recv = true ∧ Instr.recv ≠ .sweepStep ∧ ∀ low, Instr.recv ≠ .hostopReserved low := by
  refine ⟨by decide, by decide, by decide, by decide, by decide, by decide, ?_⟩
  intro _ h
  cases h

theorem test_witness_RecvEffect :
    (hostReady boot = true ∧ boot.qAlloc = false) ∧
      (hostReady pushed3 = true ∧ pushed3.qAlloc = true ∧
        pushed3.rptr = ungray pushed3.cfg.pw pushed3.wptrGs) ∧
      (hostReady visible3 = true ∧ visible3.qAlloc = true ∧
        visible3.rptr ≠ ungray visible3.cfg.pw visible3.wptrGs) := by decide

theorem test_witness_DepthEffect : hostReady visible3 = true ∧ hostReady boot = true := by decide

/-- Three of eight slots in use, and a full queue whose producer has not yet seen a pop. -/
theorem test_witness_DepthIsLowerBound :
    visible3.cfg.wf = true ∧ QueueInv visible3 ∧ visible3.qAlloc = true ∧
      QueueInv { visible3 with wptr := 8, rptr := 1, wptrGs := 12 } := by
  unfold QueueInv
  decide

theorem test_witness_CanDecodeEffect :
    hostReady boot = true ∧ ascending (boot.tab.map (·.id)) = true := by decide

theorem test_witness_SnapshotEffect : hostReady boot = true ∧ hostReady live = true := by decide

theorem test_witness_LookupFindsTheEntry :
    ascending (boot.tab.map (·.id)) = true ∧ ascending (([] : List Entry).map (·.id)) = true := by decide

/-- Unwatched; disabled; the admitting call; a call before it. -/
theorem test_witness_ShouldDecodeEffect :
    rxcReady denied = true ∧ ascending (denied.tab.map (·.id)) = true ∧
      (∀ e ∈ denied.tab, e.id ≠ 0x999) ∧
      (denied.tab[3]? = some ⟨0x7FF, 0, 0, 0⟩) ∧
      (boot.tab[1]? = some ⟨0x1F0, 1, 1, 0⟩ ∧ (1 : Nat) ≠ 0 ∧ 1 ≤ 0 + 1) ∧
      (boot.tab[0]? = some ⟨0x0A5, 3, 3, 0⟩ ∧ 0 + 1 < 3) ∧
      ascending (boot.tab.map (·.id)) = true ∧ rxcReady boot = true := by decide

/-- Rates 3, 1 and 0, and an unwatched identifier. -/
theorem test_witness_DecimationLaw :
    ascending (boot.tab.map (·.id)) = true ∧
      boot.tab[0]? = some ⟨0x0A5, 3, 3, 0⟩ ∧ boot.tab[1]? = some ⟨0x1F0, 1, 1, 0⟩ ∧
      boot.tab[3]? = some ⟨0x7FF, 0, 0, 0⟩ ∧ ∀ e ∈ boot.tab, e.id ≠ 0x999 := by decide

theorem test_witness_TableWideCommandsStartSweep :
    (hostReady boot = true ∧ boot.tab ≠ []) ∧
      (hostReady { boot with tab := [] } = true ∧ ({ boot with tab := [] } : State).tab = []) := by decide

theorem test_witness_AllowIdEffect :
    hostReady denied = true ∧ ascending (denied.tab.map (·.id)) = true ∧
      (∀ e ∈ denied.tab, e.id ≠ 0x800) ∧ denied.tab[2]? = some ⟨0x3E8, 2, 0, 1⟩ := by decide

/-- No sweep; a deny at the first entry; an allow at the last. -/
theorem test_witness_SweepStepEffect :
    (rxcReady boot = true ∧ boot.swKind = .none) ∧
      (boot.tab[({ boot with swKind := .deny } : State).swK]? = some ⟨0x0A5, 3, 3, 0⟩ ∧
        ({ boot with swKind := .deny } : State).swKind = .deny) ∧
      (denied.tab[({ denied with swKind := .allow, swK := 3 } : State).swK]? = some ⟨0x7FF, 0, 0, 0⟩ ∧
        ({ denied with swKind := .allow, swK := 3 } : State).swKind = .allow) := by decide

theorem test_witness_SweepOutcome :
    (boot.tab ≠ [] ∧ boot.swK = 0 ∧ ({ boot with swKind := .deny } : State).swKind = .deny) ∧
      (denied.tab ≠ [] ∧ denied.swK = 0 ∧ ({ denied with swKind := .allow } : State).swKind = .allow) := by
  decide

/-- The empty command and a legal opcode with a wrong length. -/
theorem test_witness_BadCommandIsLogged :
    hostReady boot = true ∧ ∀ b ∈ ([[], [0x01, 0x00]] : List (List Byte)), ∀ c l, b = c :: l →
      ¬(c = 0x00 ∧ l.length = 0) ∧ ¬(c = 0x01 ∧ l.length = 2) ∧ ¬(c = 0x02 ∧ l.length = 6) :=
  ⟨by decide, fun b hb => test_witness_RemoteCommandForms b (by revert b; decide)⟩

theorem test_witness_CommandPerforms :
    hostReady boot = true ∧ legalCommand [0x00] = true ∧ legalCommand [0x00, 0x00] = false ∧
      legalCommand [] = false := by decide

/-- A watched identifier beside the swept entry, and an unwatched one. -/
theorem test_witness_RaceIsConfinedToOneEntry :
    lookup boot.tab 0x3E8 ≠ some 1 ∧ lookup boot.tab 0x999 ≠ some 0 := by decide

theorem test_witness_EntryEffect :
    (rxcReady live = true ∧ live.life ≠ .uninstalled ∧ live.drPhase = .idle) ∧
      ((0x05 : Byte) ≠ 0 ∧ (0x05 : Byte) &&& 0x01 = 0x01) ∧
      ((0xA0 : Byte) ≠ 0 ∧ (0xA0 : Byte) &&& 0x01 = 0x00 ∧ (0xA0 : Byte) &&& 0xE4 ≠ 0) ∧
      ((0x1A : Byte) ≠ 0 ∧ (0x1A : Byte) &&& 0xE5 = 0x00) ∧
      ({ live with mac := { live.mac with isr := 0xA0 } } : State).mac.isr = 0xA0 := by decide

theorem test_witness_CountEffect :
    rxcReady { live with drPhase := .count } = true ∧
      ({ live with drPhase := .count } : State).drPhase = .count := by decide

theorem test_witness_FilteredMessageIsReleased :
    (rxcReady (draining (message [0x48])) = true ∧ (draining (message [0x48])).drPhase = .drain ∧
        (draining (message [0x48])).drRemaining ≠ 0 ∧
        (draining (message [0x48])).mac.rxq = [message [0x48]] ∧
        (message [0x48])[0].getLsbD 6 = true) ∧
      ((draining (message [0x81])).mac.rxq = [message [0x81]] ∧
        (message [0x81])[0].getLsbD 6 = false ∧ (message [0x81])[0].getLsbD 7 = true) := by decide

theorem test_witness_StandardMessageEffect :
    (rxcReady (draining msgA5) = true ∧ (draining msgA5).drPhase = .drain ∧
        (draining msgA5).drRemaining ≠ 0 ∧ (draining msgA5).mac.rxq = [msgA5] ∧
        msgA5[0].getLsbD 6 = false ∧ msgA5[0].getLsbD 7 = false) ∧
      (admission (draining msgA5).tab (msgId msgA5)).1 = false ∧
      ((admission [⟨0x0A5, 1, 1, 0⟩] (msgId msgA5)).1 = true ∧ (draining msgA5).qAlloc = true ∧
        fullP (draining msgA5) = false) ∧
      fullP { draining msgA5 with wptr := 8 } = true := by decide

theorem test_witness_ExitEffect :
    rxcReady { live with drPhase := .drain } = true ∧
      ({ live with drPhase := .drain } : State).drPhase = .drain ∧
      ({ live with drPhase := .drain } : State).drRemaining = 0 := by decide

/-- In `Count`, in `Drain` with a message left, in `Drain` with none. -/
theorem test_witness_InvocationProgress :
    ∀ s ∈ [{ live with drPhase := .count, agenda := [.drainer] },
        { draining msgA5 with agenda := [.drainer] },
        { live with drPhase := .drain, agenda := [.drainer] }],
      rxcReady s = true ∧ s.qAlloc = true ∧ s.agenda = .drainer :: [] ∧ csHeld s = true := by decide

/-- Full at exactly `N`, not full one below; empty, and not. -/
theorem test_witness_QueueRowsEffect :
    rxcReady live = true ∧ live.qAlloc = true ∧ subMod 8 (ungray live.cfg.pw 0) (2 * live.cfg.n) = live.cfg.n ∧
      subMod 7 (ungray live.cfg.pw 0) (2 * live.cfg.n) ≠ live.cfg.n ∧
      pushed3.rptr = ungray pushed3.cfg.pw pushed3.wptrGs ∧
      visible3.rptr ≠ ungray visible3.cfg.pw visible3.wptrGs := by decide

/-- The widest value of four bits, and of one. -/
theorem test_witness_GrayCode :
    (0 < 4 ∧ 15 < 2 ^ 4 ∧ 2 + 1 < 4) ∧ 0 < 1 ∧ 1 < 2 ^ 1 := by decide

theorem test_witness_GrayTestsAgree :
    visible3.cfg.wf = true ∧ visible3.wptr < ptrMod visible3 ∧ visible3.rptr < ptrMod visible3 ∧
      visible3.wptrGs < ptrMod visible3 ∧ visible3.rptrGs < ptrMod visible3 := by decide

theorem test_witness_SynchroniserEffect : rxcReady pushed3 = true ∧ pushed3.qAlloc = true := by decide

theorem test_witness_QueueInvariantKept :
    pushed3.cfg.wf = true ∧ QueueInv { pushed3 with agenda := [.syncW] } ∧
      step { pushed3 with agenda := [.syncW] } = .next visible3 :=
  ⟨by decide, by unfold QueueInv; decide, by rfl⟩

theorem test_witness_QueueInvariantMeaning :
    visible3.cfg.wf = true ∧ QueueInv visible3 ∧ visible3.qAlloc = true ∧ fullP visible3 = false ∧
      emptyC visible3 = false := by
  unfold QueueInv
  decide

/-- A push that succeeds, one that fails, a pop that gives a frame, one that does not. -/
theorem test_witness_QueueIsFifo :
    visible3.cfg.wf = true ∧ QueueInv visible3 ∧ visible3.qAlloc = true ∧
      (tryPush (tagged 4) visible3).1 = true ∧
      (QueueInv { visible3 with wptr := 8 } ∧ (tryPush (tagged 4) { visible3 with wptr := 8 }).1 = false) ∧
      (tryPop visible3).1 = some (tagged 1) ∧ (QueueInv pushed3 ∧ (tryPop pushed3).1 = none) := by
  unfold QueueInv
  decide

theorem test_witness_PushesThenPops :
    live.cfg.wf = true ∧ storageWf live = true ∧ live.rptr < ptrMod live ∧ live.wptr = live.rptr ∧
      live.wptrGs = gray live.wptr ∧ live.rptrGs = gray live.rptr ∧
      (List.replicate 8 (tagged 1)).length = live.cfg.n := by decide

/-- Frames queued, and one already sent. -/
theorem test_witness_FrameInvariantKept :
    pushed3.cfg.wf = true ∧ QueueInv { pushed3 with agenda := [.syncW], sink := [frameBytes (tagged 1)] } ∧
      FrameInv { pushed3 with agenda := [.syncW], sink := [frameBytes (tagged 1)] } ∧
      step { pushed3 with agenda := [.syncW], sink := [frameBytes (tagged 1)] } =
        .next { visible3 with sink := [frameBytes (tagged 1)] } := by
  refine ⟨by decide, by unfold QueueInv; decide, ⟨by decide, ?_⟩, by rfl⟩
  intro b hb
  exact ⟨tagged 1, by decide, by simpa using hb⟩

/-- Room and the accept-all filter; a full FIFO; an enabled error; a masked one. -/
theorem test_witness_MacEffect :
    (live.powered = true ∧ modeRm live.mac.mode = false ∧ live.mac.rxq.length < live.cfg.rxfifoMsgs ∧
        live.cfg.acfMatch (acf live) msgA5 = true) ∧
      ({ p1 with rxfifoMsgs := 1 } : Config).rxfifoMsgs ≤ (draining msgA5).mac.rxq.length ∧
      live.mac.ier.getLsbD ErrBit.busErr.bit = true ∧
      ({ live.mac with ier := 0 } : Mac).ier.getLsbD ErrBit.busErr.bit = false := by decide

theorem test_witness_ResetEffect :
    boot.powered = true ∧ ({ boot with powered := false } : State).powered = false := by decide

theorem test_witness_TableInvariantKept :
    TableInv { live with agenda := [.syncW] } ∧ step { live with agenda := [.syncW] } = .next live :=
  ⟨by unfold TableInv; decide, by rfl⟩

theorem test_witness_LifecycleInvariantKept :
    LifeInv { live with agenda := [.syncW] } ∧ step { live with agenda := [.syncW] } = .next live :=
  ⟨by unfold LifeInv; decide, by rfl⟩

theorem test_witness_SequencingInvariantsKept :
    DrainInv { draining msgA5 with agenda := [.syncW] } ∧
      SweepInv { draining msgA5 with agenda := [.syncW] } ∧
      FaultInv { draining msgA5 with agenda := [.syncW] } ∧
      step { draining msgA5 with agenda := [.syncW] } = .next (draining msgA5) :=
  ⟨by unfold DrainInv; decide, by unfold SweepInv; decide, by unfold FaultInv; decide, by rfl⟩

/-- A drainer row, a host row that touches the MAC, and one that does not. -/
theorem test_witness_ContextAccessRights :
    (exec .drExit { live with drPhase := .drain } = .next live ∧ drainerRow .drExit = true) ∧
      (exec .uninstall { live with ret := .unit } =
          .next { live with
            life := .uninstalled, running := false, qAlloc := false, ret := .unit
            mac := { live.mac with ier := 0 } } ∧ hostRow .uninstall = true) ∧
      (exec .stop { live with ret := .unit } = .next { live with life := .stopped, ret := .unit } ∧
        hostRow .stop = true ∧ configRow .stop = false) :=
  ⟨⟨by rfl, by decide⟩, ⟨by rfl, by decide⟩, ⟨by rfl, by decide, by decide⟩⟩

theorem test_witness_CriticalSectionFreezesConfiguration :
    (draining msgA5).powered = true ∧ csHeld { draining msgA5 with agenda := [.syncW] } = true ∧
      step { draining msgA5 with agenda := [.syncW] } = .next (draining msgA5) :=
  ⟨by decide, by decide, by rfl⟩

theorem test_witness_OutputStreamsGrow :
    live.powered = true ∧ step { live with agenda := [.syncW] } = .next live :=
  ⟨by decide, by rfl⟩

/-- Three frames not yet visible, a pending receive bit with its message, and a sweep at its start. -/
theorem test_witness_SettlesToQuiescence :
    let s : State :=
      { pushed3 with swKind := .deny, mac := { live.mac with isr := 1, rxq := [msgA5] } }
    rxcReady s = true ∧ s.cfg.wf = true ∧ QueueInv s ∧ LifeInv s ∧ DrainInv s ∧ SweepInv s ∧
      s.life ≠ .uninstalled ∧ s.hostHeld = none ∧ s.agenda = [] := by
  unfold QueueInv LifeInv DrainInv SweepInv
  decide

end Sys2Proof.Tests
end

section
/-!
SUPPORT. What one step can do to the parameters, the table and the output streams (10_state.md R23, R24, R32),
said once for every row; the gate of R49; the rows the host port and the drainer can run. With the proofs of
the family 10_state.md.
-/

namespace Sys2Proof.Machine

/-! ### Outcomes -/

/-- Every next state of an outcome meets `P`. -/
def Leads (P : State → Prop) (r : Result) : Prop := ∀ t, r = .next t → P t

theorem leads_next {P : State → Prop} {t : State} (h : P t) : Leads P (.next t) := by
  rintro _ ⟨⟩
  exact h

theorem leads_refused {P : State → Prop} (e : Refusal) : Leads P (.refused e) := by
  rintro _ ⟨⟩

theorem leads_ite {P : State → Prop} {c : Prop} [Decidable c] {r r' : Result} (h : c → Leads P r)
    (h' : ¬c → Leads P r') : Leads P (if c then r else r') := by
  split
  · exact h ‹_›
  · exact h' ‹_›

theorem leads_hostGated {P : State → Prop} {m : String} {s : State} {r : Result} (h : Leads P r) :
    Leads P (hostGated m s r) := fun t ht => by
  obtain ⟨-, -, -, hr⟩ := hostGated_next ht
  exact h t hr

theorem leads_heldOr {P : State → Prop} {op : HeldOp} {s : State} {r : Result}
    (hheld : P { s with hostHeld := some op }) (h : Leads P r) : Leads P (heldOr op s r) := fun t ht => by
  obtain ⟨-, rfl⟩ | ⟨-, hr⟩ := heldOr_next ht
  · exact hheld
  · exact h t hr

theorem leads_stepWhen {P : State → Prop} {m : String} {b : Bool} {s s' : State} (h : P s') :
    Leads P (stepWhen m b s s') := fun t ht => by
  obtain ⟨-, -, -, rfl⟩ := stepWhen_next ht
  exact h

theorem leads_macWhen {P : State → Prop} {m : String} {b : Bool} {s s' : State} (h : P s') :
    Leads P (macWhen m b s s') := fun t ht => by
  obtain ⟨-, -, rfl⟩ := macWhen_next ht
  exact h

/-! ### The view: parameters, table and output streams -/

/-- The parts of the state that few operations touch: the parameters, the power bit, the table (R23) and the
three stored output streams (R32). -/
structure View where
  cfg : Config
  powered : Bool
  tab : List Entry
  sink : List (List Byte)
  resched : Nat
  log : List LogEntry

def State.view (s : State) : View := ⟨s.cfg, s.powered, s.tab, s.sink, s.resched, s.log⟩

/-- The three rewrites of a table entry: allow (R146, R147), deny (R147), admission test (R143). -/
inductive EntryUpdate : (Entry → Entry) → Prop
  | allow : EntryUpdate allowEntry
  | deny : EntryUpdate denyEntry
  | admission : EntryUpdate fun e => (admitEntry e).2

/-- Everything a step can do to the view. -/
inductive ViewStep : View → View → Prop
  | same (v : View) : ViewStep v v
  | entry (v : View) (k : Nat) {f : Entry → Entry} (hf : EntryUpdate f) :
      ViewStep v { v with tab := v.tab.modify k f }
  | sent (v : View) (b : List Byte) : ViewStep v { v with sink := v.sink ++ [b] }
  | rescheduled (v : View) : ViewStep v { v with resched := v.resched + 1 }
  | logged (v : View) (e : LogEntry) : ViewStep v { v with log := v.log ++ [e] }
  | reset (v : View) (hp : v.powered = false) : ViewStep v (State.resetWith v.cfg).view

theorem ViewStep.of_eq {v w : View} (h : w = v) : ViewStep v w := h ▸ .same v

/-! ### Operations that leave the view as it is -/

@[simp] theorem drawAck_view (s : State) : (drawAck s).2.view = s.view := by
  obtain ⟨a, l, -, h⟩ | ⟨-, h⟩ := drawAck_cases s <;> rw [h] <;> rfl

@[simp] theorem release_view (s : State) : (release s).view = s.view := by
  obtain ⟨m, l, -, h⟩ | ⟨-, h⟩ := release_cases s <;> rw [h] <;> rfl

@[simp] theorem setStatus_view (b : Nat) (s : State) : (setStatus b s).view = s.view := by
  obtain ⟨-, h⟩ | ⟨-, h⟩ := setStatus_cases b s <;> rw [h]
  rfl

@[simp] theorem writeMode_view (v : Byte) (s : State) : (writeMode v s).view = s.view := by
  unfold writeMode
  split
  · dsimp only
    split
    · exact drawAck_view s
    · exact drawAck_view s
  · rfl

@[simp] theorem regRead_view (r : RegName) (s : State) : (regRead r s).2.view = s.view := by
  cases r <;> rfl

/-- A register write reaches the MAC and the draws only. -/
@[simp] theorem regWrite_view (r : RegName) (v : Word32) (s : State) : (regWrite r v s).view = s.view := by
  cases r with
  | mode => exact writeMode_view _ s
  | cmd => simp only [regWrite]; split <;> simp
  | btr0 | btr1 | acr _ | amr _ => simp only [regWrite]; split <;> rfl
  | isr | ier | rxbuf _ | rmc => rfl

@[simp] theorem tryPush_view (f : Frame) (s : State) : (tryPush f s).2.view = s.view := by
  unfold tryPush
  split <;> rfl

@[simp] theorem tryPop_view (s : State) : (tryPop s).2.view = s.view := by
  unfold tryPop
  split <;> rfl

@[simp] theorem startSweep_view (k : SweepKind) (s : State) : (startSweep k s).view = s.view := by
  unfold startSweep
  split <;> rfl

@[simp] theorem zeroCounter_view (sel : CounterSel) (s : State) : (zeroCounter sel s).view = s.view := by
  cases sel <;> rfl

@[simp] theorem receive_view (m : RawMsg) (s : State) : (receive m s).view = s.view := by
  unfold receive
  split
  · exact setStatus_view _ _
  · rfl

@[simp] theorem writeTiming_view (b : BusTiming) (s : State) : (writeTiming b s).view = s.view := by
  simp [writeTiming]

@[simp] theorem writeCode_view (v : Word32) (s : State) : (writeCode v s).view = s.view := by
  simp [writeCode]

@[simp] theorem writeMask_view (v : Word32) (s : State) : (writeMask v s).view = s.view := by
  simp [writeMask]

/-! ### What each meaning does to the view -/

theorem finishMessage_view (s : State) : (finishMessage s).view = s.view := regWrite_view .cmd _ s

theorem pushAdmitted_view (w : RawMsg) (s : State) : (pushAdmitted w s).view = s.view := by
  simp only [pushAdmitted]
  split <;> exact tryPush_view _ s

theorem installConfigure_view (s : State) : (installConfigure s).view = s.view :=
  calc (installConfigure s).view
      = (writeMask s.cfg.filter.mask (writeCode s.cfg.filter.code (writeTiming s.cfg.timing s))).view :=
        (regRead_view .isr _).trans (regWrite_view .ier (enInstall.setWidth 32) _)
    _ = s.view := by simp

theorem installBody_view (s : State) : (installBody s).view = s.view := by
  rw [installBody_eq]
  dsimp only
  split
  · exact (installConfigure_view _).trans (regWrite_view .mode _ _)
  · exact regWrite_view .mode _ (qAllocate s)

theorem startBody_view (s : State) : (startBody s).view = s.view :=
  regWrite_view .mode ((modeByte false (modeAfm s.mac.mode)).setWidth 32) (clearIsr (qClear s))

theorem uninstallBody_view (s : State) : (uninstallBody s).view = s.view := regRead_view .isr _

theorem leaveInterrupt_viewStep (s : State) : ViewStep s.view (leaveInterrupt s).view := by
  by_cases hp : s.drPushed = true
  · have h : leaveInterrupt s = { s with drPhase := .idle, resched := s.resched + 1 } := by
      simp [leaveInterrupt, hp]
    rw [h]
    exact .rescheduled s.view
  · have h : leaveInterrupt s = { s with drPhase := .idle } := by
      simp [leaveInterrupt, hp]
    rw [h]
    exact .same s.view

theorem recvBody_viewStep (s : State) : ViewStep s.view (recvBody s).view := by
  unfold recvBody
  split
  · exact .of_eq (tryPop_view s)
  · next f _ =>
    change ViewStep s.view { (tryPop s).2.view with sink := s.sink ++ [frameBytes f] }
    rw [tryPop_view]
    exact .sent s.view (frameBytes f)

/-- The admission test rewrites at most one entry (R143). -/
theorem shouldDecode_viewStep (id : Word32) (s : State) : ViewStep s.view (shouldDecode id s).2.view := by
  unfold shouldDecode
  obtain ⟨-, h⟩ | ⟨k, e, -, he, -, h⟩ := admission_cases s.tab id
  · rw [h]
    exact .same s.view
  · have hset : s.tab.set k (admitEntry e).2 = s.tab.modify k fun e => (admitEntry e).2 := by
      simp [List.modify_eq_set_getElem?, he]
    rw [h, hset]
    exact .entry s.view k .admission

theorem admitMessage_viewStep (w : RawMsg) (s : State) : ViewStep s.view (admitMessage w s).view := by
  have h := shouldDecode_viewStep (msgId w) s
  unfold admitMessage
  split
  · rw [pushAdmitted_view]
    exact h
  · exact h

theorem allowInTable_viewStep (id : Word32) (s : State) :
    ViewStep s.view { s with tab := allowInTable s.tab id }.view := by
  unfold allowInTable
  split
  · exact .same s.view
  · exact .entry s.view _ .allow

theorem sweepOne_viewStep (s : State) : ViewStep s.view (sweepOne s).view := by
  simp only [sweepOne]
  cases s.swKind with
  | none => exact .same s.view
  | deny => exact .entry s.view s.swK .deny
  | allow => exact .entry s.view s.swK .allow

theorem powerOn_view (s : State) : (powerOn s).view = (State.resetWith s.cfg).view := by
  simp only [powerOn, checkConfig]
  split <;> rfl

/-! ### Rows and steps -/

section

variable {s : State}

theorem leads_view {t : State} (h : t.view = s.view) : Leads (fun t => ViewStep s.view t.view) (.next t) :=
  leads_next (.of_eq h)

/-- A table-wide command starts a sweep and writes no entry (R144, R145, R152, R153). -/
theorem leads_sweepStart (m : String) (k : SweepKind) :
    Leads (fun t => ViewStep s.view t.view) (hostGated m s (.next (setRet .unit (startSweep k s)))) :=
  leads_hostGated (leads_view (startSweep_view k s))

/-- An allow of one identifier rewrites at most its entry (R146, R154). -/
theorem leads_allowId (m : String) (id : Word32) :
    Leads (fun t => ViewStep s.view t.view)
      (hostGated m s (.next (setRet .unit { s with tab := allowInTable s.tab id }))) :=
  leads_hostGated (leads_next (allowInTable_viewStep id s))

/-- A malformed command is one `log` event (R155). -/
theorem leads_cmdInvalid (b : List Byte) : Leads (fun t => ViewStep s.view t.view) (execCmdInvalid b s) :=
  leads_hostGated (leads_next (.logged s.view _))

end

/-- The one lemma about rows and the view: no row does more than `ViewStep` says. -/
theorem exec_viewStep (i : Instr) (s : State) : Leads (fun t => ViewStep s.view t.view) (exec i s) := by
  cases i with
  | install =>
    exact leads_hostGated (leads_ite (fun _ => leads_heldOr (.same s.view) (leads_view (installBody_view s)))
      fun _ => leads_refused _)
  | start =>
    exact leads_hostGated (leads_ite (fun _ => leads_heldOr (.same s.view) (leads_view (startBody_view s)))
      fun _ => leads_refused _)
  | stop => exact leads_hostGated (leads_ite (fun _ => leads_view rfl) fun _ => leads_refused _)
  | uninstall =>
    exact leads_hostGated (leads_ite (fun _ => leads_refused _)
      fun _ => leads_heldOr (.same s.view) (leads_view (uninstallBody_view s)))
  | recv =>
    exact leads_hostGated (leads_ite (fun _ => leads_next (recvBody_viewStep s)) fun _ => leads_refused _)
  | depth => exact leads_hostGated (leads_ite (fun _ => leads_view rfl) fun _ => leads_refused _)
  | canDecode id => exact leads_hostGated (leads_view rfl)
  | snapshot sel => exact leads_hostGated (leads_view (zeroCounter_view sel s))
  | command b =>
    simp only [exec, execCommand]
    split
    · exact leads_sweepStart _ _
    · exact leads_sweepStart _ _
    · exact leads_allowId _ _
    · exact leads_cmdInvalid b
  | denyAll | allowAll | cmdDenyAll | cmdAllowAll _ => exact leads_sweepStart _ _
  | allowId id | cmdAllowId _ id => exact leads_allowId _ id
  | cmdInvalid b => exact leads_cmdInvalid b
  | hostopReserved low => exact leads_refused _
  | drEntryRx | drEntryErr | drEntryNone | drCount | captureClass _ | syncW | syncR =>
    exact leads_stepWhen (.same s.view)
  | drMsgRtr | drMsgExt => exact leads_stepWhen (.of_eq (finishMessage_view s))
  | drMsgStd =>
    refine leads_stepWhen ?_
    rw [finishMessage_view]
    exact admitMessage_viewStep _ s
  | drExit => exact leads_stepWhen (leaveInterrupt_viewStep s)
  | sweepStep => exact leads_stepWhen (sweepOne_viewStep s)
  | shouldDecode id => exact leads_stepWhen (shouldDecode_viewStep id s)
  | tryPush f => exact leads_stepWhen (.of_eq (tryPush_view f s))
  | tryPop => exact leads_stepWhen (.of_eq (tryPop_view s))
  | macRx m => exact leads_macWhen (.of_eq (receive_view m s))
  | macErr b => exact leads_macWhen (.of_eq (setStatus_view _ s))
  | reset =>
    refine leads_ite (fun _ => leads_refused _) fun hp => leads_next ?_
    rw [powerOn_view]
    exact .reset s.view (Bool.eq_false_of_not_eq_true hp)

theorem RunsFrom.view_eq {s s' : State} (h : RunsFrom s s') : s'.view = s.view := by
  obtain ⟨h, -⟩ := h
  rw [h]
  rfl

theorem step_viewStep {s t : State} (h : step s = .next t) : ViewStep s.view t.view := by
  obtain ⟨i, s', -, hs, hx⟩ | hs := step_cases h
  · have hv : ViewStep s'.view t.view := exec_viewStep i s' t hx
    rwa [hs.view_eq] at hv
  · exact .of_eq hs.view_eq

/-! ### The table's invariant -/

/-- What `TableInv` asks of one entry (R157). -/
def Entry.Ok (e : Entry) : Prop := (e.rate = 0 ∨ e.rate = e.dflt) ∧ e.count < max e.dflt 1

/-- `TableInv` as a fact of the view. -/
def View.TableOk (v : View) : Prop :=
  v.tab.map (fun e => (e.id, e.dflt)) = v.cfg.profile.map (fun e => (e.id, e.dflt.toNat)) ∧
    ∀ e ∈ v.tab, e.Ok

theorem tableInv_iff_view (s : State) : TableInv s ↔ s.view.TableOk := Iff.rfl

theorem EntryUpdate.id_dflt {f : Entry → Entry} (hf : EntryUpdate f) (e : Entry) :
    ((f e).id, (f e).dflt) = (e.id, e.dflt) := by
  cases hf with
  | allow | deny => rfl
  | admission => simp

/-- The admission test counts only below the rate, and the rate is then the default (R143). -/
theorem admitEntry_ok {e : Entry} (h : e.Ok) : (admitEntry e).2.Ok := by
  obtain ⟨hrate, hcount⟩ := h
  unfold admitEntry
  split
  · exact ⟨hrate, hcount⟩
  · next h0 =>
    have hr : e.rate = e.dflt := hrate.resolve_left h0
    split
    · exact ⟨hrate, by simp⟩
    · next hlt =>
      refine ⟨hrate, ?_⟩
      change e.count + 1 < max e.dflt 1
      omega

theorem EntryUpdate.ok {f : Entry → Entry} (hf : EntryUpdate f) {e : Entry} (h : e.Ok) : (f e).Ok := by
  cases hf with
  | allow => exact ⟨.inr rfl, by simp [allowEntry]⟩
  | deny => exact ⟨.inl rfl, h.2⟩
  | admission => exact admitEntry_ok h

/-- A member of a list with one place rewritten is an old member or a rewritten one. -/
theorem mem_modify_cases {α : Type} {f : α → α} {k : Nat} {l : List α} {a : α} (h : a ∈ l.modify k f) :
    a ∈ l ∨ ∃ b ∈ l, a = f b := by
  obtain ⟨j, hj⟩ := List.mem_iff_getElem?.1 h
  rw [List.getElem?_modify] at hj
  obtain ⟨b, hb, hab⟩ := Option.map_eq_some_iff.1 hj
  have hmem : b ∈ l := List.mem_of_getElem? hb
  split at hab
  · exact .inr ⟨b, hmem, hab.symm⟩
  · exact .inl (hab ▸ hmem)

theorem map_modify_of_keeps {α β : Type} {f : α → α} {g : α → β} (h : ∀ a, g (f a) = g a) (k : Nat)
    (l : List α) : (l.modify k f).map g = l.map g := by
  apply List.ext_getElem?
  intro j
  simp only [List.getElem?_map, List.getElem?_modify]
  cases l[j]? with
  | none => rfl
  | some a => by_cases hj : k = j <;> simp [hj, h]

theorem View.TableOk.modify {v : View} (h : v.TableOk) (k : Nat) {f : Entry → Entry} (hf : EntryUpdate f) :
    View.TableOk { v with tab := v.tab.modify k f } := by
  obtain ⟨hkeys, hok⟩ := h
  refine ⟨(map_modify_of_keeps hf.id_dflt k v.tab).trans hkeys, fun e he => ?_⟩
  obtain he | ⟨e', he', rfl⟩ := mem_modify_cases he
  · exact hok e he
  · exact hf.ok (hok e' he')

/-- The table DEC.NEW builds meets the invariant (R140). -/
theorem tableInv_resetWith (c : Config) : TableInv (State.resetWith c) := by
  simp [TableInv, State.resetWith, freshTable]

theorem ViewStep.tableOk {v w : View} (hstep : ViewStep v w) (h : v.TableOk) : w.TableOk := by
  cases hstep with
  | same | sent | rescheduled | logged => exact h
  | entry k hf => exact h.modify k hf
  | reset => exact tableInv_resetWith v.cfg

theorem step_tableInv {s t : State} (h : step s = .next t) (hs : TableInv s) : TableInv t :=
  (tableInv_iff_view t).2 ((step_viewStep h).tableOk ((tableInv_iff_view s).1 hs))

/-- A default comes from the profile, where it has `RATE_W` bits (R5, R23). -/
theorem TableInv.dflt_lt {s : State} (h : TableInv s) {e : Entry} (he : e ∈ s.tab) :
    e.dflt < 2 ^ s.cfg.rateW := by
  have hmem : (e.id, e.dflt) ∈ s.cfg.profile.map (fun p => (p.id, p.dflt.toNat)) :=
    h.1 ▸ List.mem_map_of_mem he
  obtain ⟨p, -, hp⟩ := List.mem_map.1 hmem
  obtain ⟨-, hd⟩ := Prod.mk.inj hp
  exact hd ▸ p.dflt.isLt

/-- Rates and counts are bounded by the default, so they fit where it does; a count has room to grow (R24). -/
theorem Entry.Ok.fits {e : Entry} (h : e.Ok) {w : Nat} (hd : e.dflt < 2 ^ w) :
    e.rate < 2 ^ w ∧ e.count < 2 ^ w ∧ (0 < w → e.count + 1 < 2 ^ w) := by
  obtain ⟨hrate, hcount⟩ := h
  refine ⟨by omega, by omega, fun hw => ?_⟩
  have htwo : 2 ≤ 2 ^ w := Nat.le_self_pow hw.ne' 2
  omega

/-- Settles O54: a step rewrites the table by entry updates that keep identifier, default and bounds, or builds
it afresh; the widths follow from the profile's. -/
theorem tableInvariantKept : Obligations.TableInvariantKept := by
  intro s t hs hstep
  have ht : TableInv t := step_tableInv hstep hs
  refine ⟨ht, fun e he => ?_⟩
  have hd : e.dflt < 2 ^ t.cfg.rateW := ht.dflt_lt he
  exact ⟨hd, Entry.Ok.fits (ht.2 e he) hd⟩

/-! ### The output streams -/

/-- Once the power is on a step adds at most one event to one stream (R32). -/
theorem ViewStep.streams {v w : View} (h : ViewStep v w) (hp : v.powered = true) :
    (w.sink = v.sink ∨ ∃ b, w.sink = v.sink ++ [b]) ∧
      (w.resched = v.resched ∨ w.resched = v.resched + 1) ∧
      (w.log = v.log ∨ ∃ e, w.log = v.log ++ [e]) := by
  cases h with
  | same | entry => exact ⟨.inl rfl, .inl rfl, .inl rfl⟩
  | sent b => exact ⟨.inr ⟨b, rfl⟩, .inl rfl, .inl rfl⟩
  | rescheduled => exact ⟨.inl rfl, .inr rfl, .inl rfl⟩
  | logged e => exact ⟨.inl rfl, .inl rfl, .inr ⟨e, rfl⟩⟩
  | reset hoff => simp [hoff] at hp

/-- Settles O59: no step does more to the view than `ViewStep` says, and RESET, which alone empties the streams,
needs the power off. -/
theorem outputStreamsGrow : Obligations.OutputStreamsGrow :=
  fun _ _ hp h => (step_viewStep h).streams hp

/-! ### The register map -/

/-- An index that is none of the five registers of both modes, nor in its mode's ranges, names no register. -/
theorem regAt_none {cm : Bool} {k : Nat} (hboth : k ≠ 0 ∧ k ≠ 1 ∧ k ≠ 3 ∧ k ≠ 4 ∧ k ≠ 29)
    (hconf : cm = true → k ≠ 6 ∧ k ≠ 7 ∧ ¬(16 ≤ k ∧ k < 24)) (hop : cm = false → ¬(16 ≤ k ∧ k < 29)) :
    regAt cm k = none := by
  obtain ⟨h0, h1, h3, h4, h29⟩ := hboth
  simp only [regAt, h0, h1, h3, h4, h29, if_false]
  cases cm with
  | true =>
    obtain ⟨h6, h7, hr⟩ := hconf rfl
    simp only [h6, h7, if_true, if_false]
    rw [if_neg (by omega), if_neg (by omega)]
  | false => simp [hop rfl]

/-- Settles O6: the named indices are finitely many and computed; any other is outside every range (R42). -/
theorem registerMapIsR42 : Obligations.RegisterMapIsR42 := by
  refine ⟨by decide, by decide, by decide, by decide, by decide, fun cm k hk => regAt_none (by omega) ?_ ?_⟩
  · intro _
    omega
  · rintro rfl
    simp only [Bool.false_eq_true, false_and, or_false] at hk
    omega

/-! ### Which turn a host issue gets -/

theorem step_of_fetch_run {s s' : State} {i : Instr} (h : fetch s = .run i s') : step s = exec i s' := by
  simp [step, h]

theorem fetch_host {s : State} {bytes : List Byte} {l : List Turn} (h : s.agenda = .host bytes :: l) :
    fetch s = hostTurn bytes s { s with agenda := l } := by
  simp [fetch, h]

theorem hostBusy_cases {s : State} (h : hostBusy s = true) :
    s.swKind ≠ .none ∨ ∃ op, s.swKind = .none ∧ s.hostHeld = some op := by
  by_cases hk : s.swKind = .none
  · exact .inr ((Option.isSome_iff_exists.1 (by simpa [hostBusy, hk] using h)).imp fun _ ho => ⟨hk, ho⟩)
  · exact .inl hk

/-- A free host runs what its bytes encode (R7, R104). -/
theorem step_host_free {s : State} {bytes : List Byte} {l : List Turn} {i : Instr}
    (h : s.agenda = .host bytes :: l) (hb : hostBusy s = false) (hd : decode .hostop bytes = .ok i) :
    step s = exec i { s with agenda := l } :=
  step_of_fetch_run (by simp [fetch_host h, hostTurn, hb, hd])

/-- A sweep goes on first (R46, R147). -/
theorem step_host_sweep {s : State} {bytes : List Byte} {l : List Turn} (h : s.agenda = .host bytes :: l)
    (hk : s.swKind ≠ .none) : step s = exec .sweepStep s :=
  step_of_fetch_run (by simp [fetch_host h, hostTurn, hostBusy, hostOwn, hk])

/-- A held operation goes on once the critical section is free (R72). -/
theorem step_host_held {s : State} {bytes : List Byte} {l : List Turn} {op : HeldOp}
    (h : s.agenda = .host bytes :: l) (hk : s.swKind = .none) (ho : s.hostHeld = some op)
    (hc : csHeld s = false) : step s = exec (heldInstr op) { s with hostHeld := none } :=
  step_of_fetch_run (by simp [fetch_host h, hostTurn, hostBusy, hostOwn, hk, ho, hc])

/-- Until then the drainer moves on (R72, R207). -/
theorem step_host_drainer {s : State} {bytes : List Byte} {l : List Turn} {op : HeldOp} {i : Instr}
    (h : s.agenda = .host bytes :: l) (hk : s.swKind = .none) (ho : s.hostHeld = some op)
    (hc : csHeld s = true) (hi : drainerInstr s = some i) : step s = exec i s :=
  step_of_fetch_run (by simp [fetch_host h, hostTurn, hostBusy, hostOwn, drainerTurn, hk, ho, hc, hi])

/-- Settles O10: one equation of `step` per state of the busy host. -/
theorem hostFinishesFirst : Obligations.HostFinishesFirst := fun _ _ _ h =>
  ⟨step_host_sweep h, fun _ => step_host_held h, fun _ _ => step_host_drainer h⟩

/-! ### The rows each agent runs -/

/-- What is decoded, if anything, is a host row. -/
def OnlyHostRows (d : Decoded) : Prop := ∀ i, d = .ok i → hostRow i = true

theorem ok_onlyHostRows {i : Instr} (h : hostRow i = true) : OnlyHostRows (.ok i) := by
  rintro _ ⟨⟩
  exact h

theorem reject_onlyHostRows (e : DecodeError) : OnlyHostRows (.reject e) := by
  rintro _ ⟨⟩

theorem ite_onlyHostRows {c : Prop} [Decidable c] {d d' : Decoded} (h : OnlyHostRows d)
    (h' : OnlyHostRows d') : OnlyHostRows (if c then d else d') := by
  split
  · exact h
  · exact h'

theorem noOperand_onlyHostRows {i : Instr} (h : hostRow i = true) (l : List Byte) :
    OnlyHostRows (noOperand i l) := by
  unfold noOperand
  split
  · exact ok_onlyHostRows h
  · exact reject_onlyHostRows _

theorem idOperand_onlyHostRows {f : Word32 → Instr} (h : ∀ v, hostRow (f v) = true) (l : List Byte) :
    OnlyHostRows (idOperand f l) := by
  unfold idOperand
  split
  · exact ok_onlyHostRows (h _)
  · exact reject_onlyHostRows _
  · exact reject_onlyHostRows _

theorem selOperand_onlyHostRows (l : List Byte) : OnlyHostRows (selOperand l) := by
  unfold selOperand
  split
  · exact ite_onlyHostRows (ok_onlyHostRows rfl) (reject_onlyHostRows _)
  · exact reject_onlyHostRows _
  · exact reject_onlyHostRows _

theorem decodeSelect_onlyHostRows (op : BitVec 4) (l : List Byte) : OnlyHostRows (decodeSelect op l) := by
  have hno {i : Instr} (h : hostRow i = true) : OnlyHostRows (noOperand i l) := noOperand_onlyHostRows h l
  unfold decodeSelect
  exact ite_onlyHostRows (hno rfl) <| ite_onlyHostRows (hno rfl) <| ite_onlyHostRows (hno rfl) <|
    ite_onlyHostRows (hno rfl) <| ite_onlyHostRows (hno rfl) <| ite_onlyHostRows (hno rfl) <|
    ite_onlyHostRows (idOperand_onlyHostRows (fun _ => rfl) l) <|
    ite_onlyHostRows (selOperand_onlyHostRows l) <| ite_onlyHostRows (ok_onlyHostRows rfl) <|
    ite_onlyHostRows (hno rfl) <| ite_onlyHostRows (hno rfl) <|
    ite_onlyHostRows (idOperand_onlyHostRows (fun _ => rfl) l) (hno rfl)

/-- The host port's bytes name host operations only (R104). -/
theorem decodeHost_onlyHostRows (l : List Byte) : OnlyHostRows (decodeHost l) := by
  unfold decodeHost
  split
  · exact reject_onlyHostRows _
  · exact ite_onlyHostRows (decodeSelect_onlyHostRows _ _) (reject_onlyHostRows _)

theorem decodeRxctrl_drainerRow (c : Byte) : drainerRow (decodeRxctrl c) = true := by
  unfold decodeRxctrl
  split
  · rfl
  · split <;> rfl

/-- Inside an invocation the drainer always has a step, and it is a drainer row (R245, R246, R263). -/
theorem drainerInstr_of_csHeld {s : State} (h : csHeld s = true) :
    ∃ i, drainerInstr s = some i ∧ drainerRow i = true := by
  unfold drainerInstr
  cases hph : s.drPhase with
  | idle => simp [csHeld, hph] at h
  | count => exact ⟨_, rfl, rfl⟩
  | drain =>
    dsimp only
    split
    · exact ⟨_, rfl, rfl⟩
    · exact ⟨_, rfl, decodeRxctrl_drainerRow _⟩

/-! ### The fatal configuration -/

/-- The rows outside RXC's gate: the reserved codes, the environment's steps and RESET. -/
def ungatedRow (i : Instr) : Bool :=
  match i with
  | .hostopReserved _ | .macRx _ | .macErr _ | .reset => true
  | _ => false

theorem ungatedRow_eq_false {i : Instr} (hres : ∀ low, i ≠ .hostopReserved low) (hrx : ∀ m, i ≠ .macRx m)
    (herr : ∀ b, i ≠ .macErr b) (hreset : i ≠ .reset) : ungatedRow i = false := by
  cases i with
  | hostopReserved low => exact absurd rfl (hres low)
  | macRx m => exact absurd rfl (hrx m)
  | macErr b => exact absurd rfl (herr b)
  | reset => exact absurd rfl hreset
  | _ => rfl

theorem ungatedRow_of_drainerRow {i : Instr} (h : drainerRow i = true) : ungatedRow i = false := by
  cases i with
  | hostopReserved | macRx | macErr | reset => cases h
  | _ => rfl

theorem ungatedRow_of_hostRow {i : Instr} (h : hostRow i = true) (hres : ∀ low, i ≠ .hostopReserved low) :
    ungatedRow i = false := by
  cases i with
  | hostopReserved low => exact absurd rfl (hres low)
  | macRx | macErr | reset => cases h
  | _ => rfl

/-- Every row but those answers through the gate (R49, R290). -/
theorem exec_gated {i : Instr} (h : ungatedRow i = false) (s : State) : ∃ r, exec i s = gated s r := by
  cases i with
  | hostopReserved | macRx | macErr | reset => cases h
  | command b =>
    simp only [exec, execCommand]
    split <;> exact ⟨_, rfl⟩
  | _ => exact ⟨_, rfl⟩

theorem exec_fatal {i : Instr} {s : State} (h : ungatedRow i = false) (hp : s.powered = true)
    (hf : s.faultCfg = true) : exec i s = .fault .fatalConfig := by
  obtain ⟨r, hr⟩ := exec_gated h s
  simp [hr, gated, hp, hf]

/-- A host turn of the stopped block runs a gated row, whether the host is free or busy (R49). -/
theorem step_host_fatal {s : State} {bytes : List Byte} {l : List Turn} {i : Instr} (hp : s.powered = true)
    (hf : s.faultCfg = true) (h : s.agenda = .host bytes :: l) (hd : decode .hostop bytes = .ok i)
    (hres : ∀ low, i ≠ .hostopReserved low) : step s = .fault .fatalConfig := by
  cases hb : hostBusy s with
  | false =>
    rw [step_host_free h hb hd]
    exact exec_fatal (ungatedRow_of_hostRow (decodeHost_onlyHostRows bytes i hd) hres) hp hf
  | true =>
    obtain hk | ⟨op, hk, ho⟩ := hostBusy_cases hb
    · rw [step_host_sweep h hk]
      exact exec_fatal rfl hp hf
    · cases hc : csHeld s with
      | false =>
        rw [step_host_held h hk ho hc]
        exact exec_fatal (by cases op <;> rfl) hp hf
      | true =>
        obtain ⟨j, hj, hrow⟩ := drainerInstr_of_csHeld hc
        rw [step_host_drainer h hk ho hc hj]
        exact exec_fatal (ungatedRow_of_drainerRow hrow) hp hf

/-- Settles O11: rows stop at the gate, the agents' own turns at the fetch, a host turn at the row it runs. -/
theorem fatalConfigStops : Obligations.FatalConfigStops := by
  intro s hp hf
  refine ⟨fun i hres hrx herr hreset => exec_fatal (ungatedRow_eq_false hres hrx herr hreset) hp hf,
    fun h => ?_, fun l h => ?_, fun bytes l i h hd hres => step_host_fatal hp hf h hd hres⟩
  · simp [step, fetch, h, ownTurn, hp, hf]
  · obtain h | h | h | h := h <;> simp [step, fetch, h, ownTurn, hp, hf]

end Sys2Proof.Machine
end

section
/-!
SUPPORT. The shared memory of RXC (20_memory.md): the table under a race (R70, R159), the queue's storage and
pointers as a list (R67, R69, R178), and what the critical section protects (R72, R73, R302). With the proofs of
the family 20_memory.md.
-/

namespace Sys2Proof.Machine

/-! ### The busy host -/

theorem hostBusy_iff {s : State} : hostBusy s = true ↔ s.hostHeld.isSome = true ∨ s.swKind ≠ .none := by
  simp [hostBusy, or_comm]

theorem rxcReady_iff {s : State} : rxcReady s = true ↔ s.powered = true ∧ s.faultCfg = false := by
  simp [rxcReady]

theorem hostGated_busy {s : State} (m : String) (r : Result) (hr : rxcReady s = true)
    (hb : hostBusy s = true) : hostGated m s r = .refused (.hostBusy m) := by
  obtain ⟨hp, hf⟩ := rxcReady_iff.1 hr
  simp [hostGated, gated_ready _ hp hf, hb]

/-- Every host row but the sweep and the reserved codes answers through the host's gate (R46, R207). -/
theorem exec_hostGated {i : Instr} (h : hostRow i = true) (hsweep : i ≠ .sweepStep)
    (hres : ∀ low, i ≠ .hostopReserved low) (s : State) : ∃ m r, exec i s = hostGated m s r := by
  cases i with
  | sweepStep => exact absurd rfl hsweep
  | hostopReserved low => exact absurd rfl (hres low)
  | command b =>
    simp only [exec, execCommand]
    split <;> exact ⟨_, _, rfl⟩
  | install | start | stop | uninstall | recv | depth | canDecode | snapshot | denyAll | allowAll | allowId
  | cmdDenyAll | cmdAllowAll | cmdAllowId | cmdInvalid => exact ⟨_, _, rfl⟩
  | _ => cases h

theorem heldOr_held {s : State} (op : HeldOp) (r : Result) (hc : csHeld s = true) :
    heldOr op s r = .next { s with hostHeld := some op } := by
  simp [heldOr, hc]

/-- Settles O18: a lifecycle operation reaches the hold once its own condition on `life` is met, and the gate
that a busy host does not pass stands before every other row the host runs. -/
theorem criticalSectionHolds : Obligations.CriticalSectionHolds := by
  refine fun s => ⟨fun hc hr => ⟨fun hl => ?_, fun hl => ?_, fun hl => ?_⟩, fun hr hb i hi hsweep hres => ?_⟩
  · simp only [exec, execInstall, hostGated_ready _ _ hr, if_pos hl, heldOr_held _ _ hc]
  · simp only [exec, execStart, hostGated_ready _ _ hr, if_pos hl, heldOr_held _ _ hc]
  · simp only [exec, execUninstall, hostGated_ready _ _ hr, if_neg hl, heldOr_held _ _ hc]
  · obtain ⟨m, r, h⟩ := exec_hostGated hi hsweep hres s
    exact ⟨m, h.trans (hostGated_busy m r hr (hostBusy_iff.2 hb))⟩

/-! ### The table under a race -/

/-- The search reads nothing of an entry but its identifier (R141). -/
theorem search_congr {tab tab' : List Entry} (h : tab'.map (·.id) = tab.map (·.id)) (id : Word32)
    (fuel lo hi : Nat) : search tab' id fuel lo hi = search tab id fuel lo hi := by
  induction fuel generalizing lo hi with
  | zero => rfl
  | succ fuel ih =>
    have hmid : (tab'[(lo + hi) / 2]?).map (·.id) = (tab[(lo + hi) / 2]?).map (·.id) := by
      simpa only [List.getElem?_map] using congrArg (·[(lo + hi) / 2]?) h
    simp only [search]
    cases he : tab[(lo + hi) / 2]? with
    | none =>
      have he' : tab'[(lo + hi) / 2]? = none := by simpa [he] using hmid
      rw [he']
    | some e =>
      obtain ⟨e', he', hid⟩ : ∃ e', tab'[(lo + hi) / 2]? = some e' ∧ e'.id = e.id := by
        simpa [he] using hmid
      simp only [he', hid, ih]

/-- Tables with the same identifiers are looked up alike (R141). -/
theorem lookup_congr {tab tab' : List Entry} (h : tab'.map (·.id) = tab.map (·.id)) (id : Word32) :
    lookup tab' id = lookup tab id := by
  have hlen : tab'.length = tab.length := by simpa using congrArg List.length h
  rw [lookup, hlen, search_congr h, lookup]

/-- Writing one place and rewriting another commute. -/
theorem set_modify_comm {α : Type} (l : List α) {i k : Nat} (h : k ≠ i) (f : α → α) (a : α) :
    (l.modify i f).set k a = (l.set k a).modify i f := by
  apply List.ext_getElem?
  intro j
  by_cases hk : k = j
  · subst hk
    simp [List.getElem?_set, h.symm]
  · simp [List.getElem?_modify, hk]

/-- An admission commutes with a rewrite of another entry that keeps the identifier. -/
theorem admission_modify_comm {tab : List Entry} {id : Word32} {i : Nat} (h : lookup tab id ≠ some i)
    {f : Entry → Entry} (hf : ∀ e, (f e).id = e.id) :
    admission (tab.modify i f) id = ((admission tab id).1, (admission tab id).2.modify i f) := by
  have hlookup : lookup (tab.modify i f) id = lookup tab id := lookup_congr (map_modify_of_keeps hf i tab) id
  obtain ⟨hk, hadm⟩ | ⟨k, e, hk, he, -, hadm⟩ := admission_cases tab id
  · rw [hadm]
    simp [admission, hlookup, hk]
  · have hki : k ≠ i := fun hc => h (hc ▸ hk)
    rw [hadm]
    simp [admission, hlookup, hk, hki.symm, he, set_modify_comm _ hki]

/-- Settles O33: a sweep step rewrites one entry and keeps its identifier, so an admission elsewhere finds and
writes the same entry before it and after it. -/
theorem raceIsConfinedToOneEntry : Obligations.RaceIsConfinedToOneEntry := by
  intro tab id kind i h
  cases kind with
  | none => rfl
  | deny => exact admission_modify_comm h fun _ => rfl
  | allow => exact admission_modify_comm h fun _ => rfl

/-! ### Pointers -/

/-- What a well-formed configuration says of `N` (R6). -/
theorem n_of_wf {c : Config} (h : c.wf = true) : c.n = 2 ^ Nat.log2 c.n ∧ 2 ≤ c.n := by
  simp only [Config.wf, Bool.and_eq_true, beq_iff_eq, decide_eq_true_eq] at h
  obtain ⟨⟨-, hpow⟩, htwo⟩ := h
  exact ⟨hpow, htwo⟩

theorem n_pos {c : Config} (h : c.wf = true) : 0 < c.n :=
  Nat.zero_lt_two.trans_le (n_of_wf h).2

/-- A pointer has `PW` bits (R26). -/
theorem two_pow_pw {s : State} (h : s.cfg.wf = true) : 2 ^ s.cfg.pw = ptrMod s := by
  rw [Config.pw, Nat.pow_succ, ← (n_of_wf h).1, ptrMod, Nat.mul_comm]

/-- The inverse Gray code keeps the width (R102). -/
theorem ungray_lt {pw g : Nat} (h : g < 2 ^ pw) : ungray pw g < 2 ^ pw := by
  induction pw generalizing g with
  | zero => simp [ungray]
  | succ pw ih =>
    have hshift : g >>> 1 < 2 ^ pw := by
      rw [Nat.shiftRight_eq_div_pow]
      omega
    exact Nat.xor_lt_two_pow h ((ih hshift).trans (Nat.pow_lt_pow_right (by omega) (by omega)))

/-- A distance modulo `m` leads back. -/
theorem add_subMod_mod {a b m : Nat} (ha : a < m) (hb : b < m) : (b + subMod a b m) % m = a := by
  rw [subMod_eq ha hb]
  split
  · rw [Nat.add_sub_of_le ‹_›, Nat.mod_eq_of_lt ha]
  · rw [show b + (a + m - b) = a + m by omega, Nat.add_mod_right, Nat.mod_eq_of_lt ha]

theorem subMod_pos {a b m : Nat} (ha : a < m) (hb : b < m) (h : a ≠ b) : 0 < subMod a b m := by
  rw [subMod_eq ha hb]
  split <;> omega

/-- Two distances in a row that stay below `m` add up. -/
theorem subMod_add {a b c m : Nat} (ha : a < m) (hb : b < m) (hlt : subMod b c m + subMod a b m < m) :
    subMod a c m = subMod b c m + subMod a b m := by
  have hm : 0 < m := by omega
  have hc : c % m < m := Nat.mod_lt c hm
  have hmod (x : Nat) : subMod x c m = subMod x (c % m) m := by simp [subMod]
  rw [hmod b, subMod_eq hb hc, subMod_eq ha hb] at hlt
  rw [hmod a, hmod b, subMod_eq ha hc, subMod_eq hb hc, subMod_eq ha hb]
  grind

/-- A step of the pointer ahead is one place more, unless the distance wraps. -/
theorem subMod_succ_left {a b m : Nat} (ha : a < m) (hb : b < m) (h : subMod a b m + 1 < m) :
    subMod ((a + 1) % m) b m = subMod a b m + 1 := by
  rw [subMod_eq (Nat.mod_lt _ (by omega)) hb]
  rw [subMod_eq ha hb] at h ⊢
  obtain hw | hw : a + 1 < m ∨ a + 1 = m := by omega
  · rw [Nat.mod_eq_of_lt hw]
    grind
  · rw [hw, Nat.mod_self]
    grind

/-- A step of the pointer behind is one place less, unless they are level. -/
theorem subMod_succ_right {a b m : Nat} (ha : a < m) (hb : b < m) (h : 0 < subMod a b m) :
    subMod a ((b + 1) % m) m + 1 = subMod a b m := by
  rw [subMod_eq ha (Nat.mod_lt _ (by omega))]
  rw [subMod_eq ha hb] at h ⊢
  obtain hw | hw : b + 1 < m ∨ b + 1 = m := by omega
  · rw [Nat.mod_eq_of_lt hw]
    grind
  · rw [hw, Nat.mod_self]
    grind

/-! ### The queue's contents -/

section

variable {s : State} (hwf : s.cfg.wf = true) (hq : QueueInv s) (ha : s.qAlloc = true)

include hwf hq ha

theorem rSeen_lt : rSeen s < ptrMod s := by
  obtain ⟨-, -, -, hrg, -⟩ := hq.2 ha
  exact two_pow_pw hwf ▸ ungray_lt (two_pow_pw hwf ▸ hrg)

theorem wSeen_lt : wSeen s < ptrMod s := by
  obtain ⟨-, -, hwg, -⟩ := hq.2 ha
  exact two_pow_pw hwf ▸ ungray_lt (two_pow_pw hwf ▸ hwg)

/-- The producer's view of the occupancy counts what it has not seen popped as well (R178 b). -/
theorem subMod_wptr_rSeen :
    subMod s.wptr (rSeen s) (ptrMod s) = subMod s.rptr (rSeen s) (ptrMod s) + occ s := by
  obtain ⟨hw, hr, -, -, hsum, -⟩ := hq.2 ha
  have hn : s.cfg.n < ptrMod s := lt_mul_of_one_lt_left (n_pos hwf) Nat.one_lt_two
  exact subMod_add hw hr (hsum.trans_lt hn)

/-- The producer never takes a full queue for one with room (R178). -/
theorem occ_lt_of_not_fullP (hf : fullP s = false) : occ s < s.cfg.n := by
  obtain ⟨-, -, -, -, hsum, -⟩ := hq.2 ha
  have hne : subMod s.wptr (rSeen s) (ptrMod s) ≠ s.cfg.n := by simpa [fullP] using hf
  rw [subMod_wptr_rSeen hwf hq ha] at hne
  omega

/-- The consumer never takes an empty queue for one with a frame (R178). -/
theorem occ_pos_of_not_emptyC (he : emptyC s = false) : 0 < occ s := by
  obtain ⟨-, hr, -, -, -, hseen⟩ := hq.2 ha
  have hne : wSeen s ≠ s.rptr := fun h => by simp [emptyC, h] at he
  exact (subMod_pos (wSeen_lt hwf hq ha) hr hne).trans_le hseen

omit hwf in
/-- The slot the next push writes comes `occ` places after the oldest frame's. -/
theorem wptr_mod_n : s.wptr % s.cfg.n = (s.rptr + occ s) % s.cfg.n := by
  obtain ⟨hw, hr, -⟩ := hq.2 ha
  calc s.wptr % s.cfg.n
      = (s.rptr + occ s) % ptrMod s % s.cfg.n := by rw [occ, add_subMod_mod hw hr]
    _ = (s.rptr + occ s) % s.cfg.n := Nat.mod_mod_of_dvd _ ⟨2, Nat.mul_comm _ _⟩

/-- The slot a push with room writes holds no frame that waits (R178). -/
theorem wptr_slot_ne (hf : fullP s = false) {j : Nat} (hj : j < occ s) :
    s.wptr % s.cfg.n ≠ (s.rptr + j) % s.cfg.n := by
  have hlt : occ s < s.cfg.n := occ_lt_of_not_fullP hwf hq ha hf
  rw [wptr_mod_n hq ha]
  intro h
  have hmod : occ s ≡ j [MOD s.cfg.n] := Nat.ModEq.add_left_cancel' s.rptr h
  exact hj.ne' (hmod.eq_of_lt_of_lt hlt (hj.trans hlt))

theorem readSlot_tryPush_old (f : Frame) (hf : fullP s = false) {j : Nat} (hj : j < occ s) :
    readSlot (tryPush f s).2 ((s.rptr + j) % s.cfg.n) = readSlot s ((s.rptr + j) % s.cfg.n) := by
  simp [tryPush_room f hf, readSlot, wptr_slot_ne hwf hq ha hf hj]

theorem readSlot_tryPush_new (f : Frame) (hf : fullP s = false) :
    readSlot (tryPush f s).2 ((s.rptr + occ s) % s.cfg.n) = f := by
  have hlen : s.slots.length = s.cfg.n := by simpa [storageWf] using hq.1
  rw [tryPush_room f hf, ← wptr_mod_n hq ha]
  simp [readSlot, hlen, Nat.mod_lt _ (n_pos hwf)]

theorem occ_tryPush_room (f : Frame) (hf : fullP s = false) : occ (tryPush f s).2 = occ s + 1 := by
  obtain ⟨hw, hr, -⟩ := hq.2 ha
  have hlt : occ s < s.cfg.n := occ_lt_of_not_fullP hwf hq ha hf
  have hroom : occ s + 1 < ptrMod s := by
    simp only [ptrMod]
    omega
  rw [tryPush_room f hf]
  exact subMod_succ_left hw hr hroom

theorem occ_tryPop_some (he : emptyC s = false) : occ (tryPop s).2 + 1 = occ s := by
  obtain ⟨hw, hr, -⟩ := hq.2 ha
  rw [tryPop_some he]
  exact subMod_succ_right hw hr (occ_pos_of_not_emptyC hwf hq ha he)

/-- A push with room writes behind the newest frame and over none (R67, R178 d). -/
theorem contents_tryPush_room (f : Frame) (hf : fullP s = false) :
    contents (tryPush f s).2 = contents s ++ [f] := by
  have hrptr : (tryPush f s).2.rptr = s.rptr := by simp [tryPush_room f hf]
  have hcfg : (tryPush f s).2.cfg = s.cfg := by simp [tryPush_room f hf]
  rw [contents, occ_tryPush_room hwf hq ha f hf, hrptr, hcfg, List.range_succ, List.map_append,
    List.map_singleton, readSlot_tryPush_new hwf hq ha f hf]
  refine congrArg (· ++ [f]) (List.map_congr_left fun j hj => ?_)
  exact readSlot_tryPush_old hwf hq ha f hf (List.mem_range.1 hj)

/-- A pop that sees a frame takes the oldest one (R67, R178 d). -/
theorem contents_eq_cons_tryPop (he : emptyC s = false) :
    contents s = readSlot s (s.rptr % s.cfg.n) :: contents (tryPop s).2 := by
  have hslot (j : Nat) :
      ((s.rptr + 1) % ptrMod s + j) % s.cfg.n = (s.rptr + (j + 1)) % s.cfg.n := by
    have hdvd : s.cfg.n ∣ ptrMod s := ⟨2, Nat.mul_comm _ _⟩
    rw [Nat.add_mod, Nat.mod_mod_of_dvd _ hdvd, ← Nat.add_mod, Nat.add_assoc, Nat.add_comm 1 j]
  rw [contents, ← occ_tryPop_some hwf hq ha he, List.range_succ_eq_map, List.map_cons, List.map_map,
    contents, tryPop_some he]
  refine congrArg₂ _ rfl (List.map_congr_left fun j _ => ?_)
  exact congrArg (readSlot s) (hslot j).symm

end

/-- Settles O46: each of the two operations does what its test of the pointers says, and the tests are safe
under the invariant. -/
theorem queueIsFifo : Obligations.QueueIsFifo := by
  intro s f hwf hq ha
  refine ⟨fun h => ?_, fun h => ?_, fun g h => ?_, fun h => ?_⟩
  · cases hf : fullP s with
    | true => simp [tryPush_full f hf] at h
    | false => exact contents_tryPush_room hwf hq ha f hf
  · cases hf : fullP s with
    | true => rw [tryPush_full f hf]
    | false => simp [tryPush_room f hf] at h
  · cases he : emptyC s with
    | true => simp [tryPop_empty he] at h
    | false =>
      have hg : readSlot s (s.rptr % s.cfg.n) = g := by simpa [tryPop_some he] using h
      exact hg ▸ contents_eq_cons_tryPop hwf hq ha he
  · cases he : emptyC s with
    | true => rw [tryPop_empty he]
    | false => simp [tryPop_some he] at h

/-! ### What the critical section protects -/

/-- The parts of the state that an invocation relies on (R73, R302): the MAC's registers but for its status and
its FIFO, and the queue's existence, capacity and pointers. -/
structure Locked where
  settings : Mac
  qAlloc : Bool
  n : Nat
  wptr : Nat
  rptr : Nat

def State.locked (s : State) : Locked :=
  ⟨{ s.mac with isr := 0, rxq := [] }, s.qAlloc, s.cfg.n, s.wptr, s.rptr⟩

/-- Everything a step inside an invocation can do to them: nothing, a push or a pop. -/
inductive LockedStep : Locked → Locked → Prop
  | same (v : Locked) : LockedStep v v
  | push (v : Locked) : LockedStep v { v with wptr := (v.wptr + 1) % (2 * v.n) }
  | pop (v : Locked) : LockedStep v { v with rptr := (v.rptr + 1) % (2 * v.n) }

theorem LockedStep.of_eq {v w : Locked} (h : w = v) : LockedStep v w := h ▸ .same v

theorem release_locked (s : State) : (release s).locked = s.locked := by
  obtain ⟨m, l, -, h⟩ | ⟨-, h⟩ := release_cases s <;> rw [h] <;> rfl

theorem setStatus_locked (b : Nat) (s : State) : (setStatus b s).locked = s.locked := by
  obtain ⟨-, h⟩ | ⟨-, h⟩ := setStatus_cases b s <;> rw [h]
  rfl

theorem receive_locked (m : RawMsg) (s : State) : (receive m s).locked = s.locked := by
  unfold receive
  split
  · exact setStatus_locked _ _
  · rfl

theorem startSweep_locked (k : SweepKind) (s : State) : (startSweep k s).locked = s.locked := by
  unfold startSweep
  split <;> rfl

theorem zeroCounter_locked (sel : CounterSel) (s : State) : (zeroCounter sel s).locked = s.locked := by
  cases sel <;> rfl

theorem takeInterrupt_locked (s : State) : (takeInterrupt s).2.locked = s.locked := by
  simp only [takeInterrupt_eq, State.locked]

theorem finishMessage_locked (s : State) : (finishMessage s).locked = s.locked :=
  (congrArg State.locked (regWrite_cmd_rrb s)).trans (release_locked s)

theorem tryPush_lockedStep (f : Frame) (s : State) : LockedStep s.locked (tryPush f s).2.locked := by
  unfold tryPush
  split
  · exact .same s.locked
  · exact .push s.locked

theorem tryPop_lockedStep (s : State) : LockedStep s.locked (tryPop s).2.locked := by
  unfold tryPop
  split
  · exact .same s.locked
  · exact .pop s.locked

theorem pushAdmitted_lockedStep (w : RawMsg) (s : State) :
    LockedStep s.locked (pushAdmitted w s).locked := by
  simp only [pushAdmitted]
  split <;> exact tryPush_lockedStep _ s

/-- The admission test writes the table only (R143). -/
theorem admitMessage_lockedStep (w : RawMsg) (s : State) :
    LockedStep s.locked (admitMessage w s).locked := by
  unfold admitMessage
  split
  · exact pushAdmitted_lockedStep w (shouldDecode (msgId w) s).2
  · exact .same s.locked

theorem recvBody_lockedStep (s : State) : LockedStep s.locked (recvBody s).locked := by
  unfold recvBody
  split <;> exact tryPop_lockedStep s

section

variable {s : State}

theorem leads_locked {t : State} (h : t.locked = s.locked) :
    Leads (fun t => LockedStep s.locked t.locked) (.next t) :=
  leads_next (.of_eq h)

/-- Inside an invocation a lifecycle operation is held, and its effect does not come about (R72). -/
theorem leads_held (hc : csHeld s = true) (op : HeldOp) (r : Result) :
    Leads (fun t => LockedStep s.locked t.locked) (heldOr op s r) := by
  rw [heldOr_held op r hc]
  exact leads_locked rfl

end

/-- No row run inside an invocation does more to the protected parts than `LockedStep` says. -/
theorem exec_lockedStep (i : Instr) {s : State} (hp : s.powered = true) (hc : csHeld s = true) :
    Leads (fun t => LockedStep s.locked t.locked) (exec i s) := by
  cases i with
  | install | start => exact leads_hostGated (leads_ite (fun _ => leads_held hc _ _) fun _ => leads_refused _)
  | uninstall => exact leads_hostGated (leads_ite (fun _ => leads_refused _) fun _ => leads_held hc _ _)
  | stop | depth => exact leads_hostGated (leads_ite (fun _ => leads_locked rfl) fun _ => leads_refused _)
  | recv =>
    exact leads_hostGated (leads_ite (fun _ => leads_next (recvBody_lockedStep s)) fun _ => leads_refused _)
  | canDecode _ | allowId _ | cmdAllowId _ _ | cmdInvalid _ => exact leads_hostGated (leads_locked rfl)
  | snapshot sel => exact leads_hostGated (leads_locked (zeroCounter_locked sel s))
  | denyAll | allowAll | cmdDenyAll | cmdAllowAll _ =>
    exact leads_hostGated (leads_locked (startSweep_locked _ s))
  | command b =>
    simp only [exec, execCommand]
    split
    · exact leads_hostGated (leads_locked (startSweep_locked _ s))
    · exact leads_hostGated (leads_locked (startSweep_locked _ s))
    · exact leads_hostGated (leads_locked rfl)
    · exact leads_hostGated (leads_locked rfl)
  | hostopReserved _ => exact leads_refused _
  | drEntryRx | drEntryErr | drEntryNone => exact leads_stepWhen (.of_eq (takeInterrupt_locked s))
  | drCount | drExit | sweepStep | shouldDecode _ | captureClass _
  | syncW | syncR => exact leads_stepWhen (.same s.locked)
  | drMsgRtr | drMsgExt => exact leads_stepWhen (.of_eq (finishMessage_locked s))
  | drMsgStd =>
    refine leads_stepWhen ?_
    rw [finishMessage_locked]
    exact admitMessage_lockedStep _ s
  | tryPush f => exact leads_stepWhen (tryPush_lockedStep f s)
  | tryPop => exact leads_stepWhen (tryPop_lockedStep s)
  | macRx m => exact leads_macWhen (.of_eq (receive_locked m s))
  | macErr b => exact leads_macWhen (.of_eq (setStatus_locked _ s))
  | reset => exact leads_ite (fun _ => leads_refused _) fun hoff => absurd hp hoff

/-- Where a step runs from, the power, the critical section and the protected parts are as they were. -/
theorem RunsFrom.keeps_locked {s s' : State} (h : RunsFrom s s') :
    s'.powered = s.powered ∧ csHeld s' = csHeld s ∧ s'.locked = s.locked := by
  obtain ⟨h, -⟩ := h
  rw [h]
  exact ⟨rfl, rfl, rfl⟩

theorem step_lockedStep {s t : State} (hp : s.powered = true) (hc : csHeld s = true)
    (h : step s = .next t) : LockedStep s.locked t.locked := by
  obtain ⟨i, s', -, hs, hx⟩ | hs := step_cases h
  · obtain ⟨hpower, hcs, hlocked⟩ := hs.keeps_locked
    exact hlocked ▸ exec_lockedStep i (hpower.trans hp) (hcs.trans hc) t hx
  · obtain ⟨-, -, hlocked⟩ := hs.keeps_locked
    exact .of_eq hlocked

/-- What a step inside an invocation keeps of the protected parts. -/
theorem LockedStep.keeps {v w : Locked} (h : LockedStep v w) :
    w.settings = v.settings ∧ w.qAlloc = v.qAlloc ∧
      (w.wptr = v.wptr ∨ w.wptr = (v.wptr + 1) % (2 * v.n)) ∧
      (w.rptr = v.rptr ∨ w.rptr = (v.rptr + 1) % (2 * v.n)) := by
  cases h with
  | same => exact ⟨rfl, rfl, .inl rfl, .inl rfl⟩
  | push => exact ⟨rfl, rfl, .inr rfl, .inl rfl⟩
  | pop => exact ⟨rfl, rfl, .inl rfl, .inr rfl⟩

/-- Settles O58: the rows that would write the protected parts are held, RESET needs the power off, and of the
others only a push and a pop reach them. -/
theorem criticalSectionFreezesConfiguration : Obligations.CriticalSectionFreezesConfiguration := by
  intro s t hp hc h
  obtain ⟨hset, hqueue, hwptr, hrptr⟩ := (step_lockedStep hp hc h).keeps
  obtain ⟨hmode, hier, -, hbtr0, hbtr1, hcode, hmask, -⟩ := Mac.mk.inj hset
  exact ⟨hmode, hier, hbtr0, hbtr1, hcode, hmask, hqueue, hwptr, hrptr⟩

end Sys2Proof.Machine
end

section
/-!
SUPPORT. The encodings of 30_encoding.md: the Gray code and the queue's tests in it (R102, R103), the remote
commands (R95, R96, R106), the masks on the status value and the control byte (R97, R98, R130), and the encoder
with the decoder (R104). With the proofs of the family 30_encoding.md.
-/

namespace Sys2Proof

/-! ### The operands of a host operation -/

theorem selOperand_selOfCounter (sel : CounterSel) :
    selOperand [(selOfCounter sel).setWidth 8] = .ok (.snapshot sel) := by
  cases sel <;> rfl

theorem idOperand_idBytesLow (f : Word32 → Instr) (id : Word32) : idOperand f (idBytesLow id) = .ok (f id) :=
  congrArg (fun v => Decoded.ok (f v)) (wordOfBytes_extract id)

theorem decodeHost_reserved (low : BitVec 2) :
    decodeHost [0x0C ||| low.setWidth 8] = .ok (.hostopReserved low) := by
  revert low
  decide

/-! ### Remote commands -/

theorem decodeRcmd_allowAll (interval : BitVec 16) :
    decodeRcmd (0x01 :: intervalBytes interval) = .cmdAllowAll interval :=
  congrArg Instr.cmdAllowAll (halfOfBytes_extract interval)

theorem decodeRcmd_allowId (interval : BitVec 16) (id : Word32) :
    decodeRcmd (0x02 :: (intervalBytes interval ++ idBytesHigh id)) = .cmdAllowId interval id :=
  congrArg₂ Instr.cmdAllowId (halfOfBytes_extract interval) (wordOfBytes_extract id)

theorem legalCommand_cons (c : Byte) (l : List Byte) :
    legalCommand (c :: l) = true ↔
      (c = 0x00 ∧ l.length = 0) ∨ (c = 0x01 ∧ l.length = 2) ∨ (c = 0x02 ∧ l.length = 6) := by
  simp [legalCommand, or_assoc]

/-- Bytes that are no legal command decode to CMD.INVALID with those bytes (R95, R106). -/
theorem decodeRcmd_invalid {b : List Byte} (h : legalCommand b = false) : decodeRcmd b = .cmdInvalid b := by
  unfold decodeRcmd
  split
  · exact if_neg fun hc => by simp [hc, legalCommand] at h
  · exact if_neg fun hc => by simp [hc, legalCommand] at h
  · exact if_neg fun hc => by simp [hc, legalCommand] at h
  · rfl

/-- Settles O2: the three legal forms by their patterns, and all the rest by `decodeRcmd_invalid`. -/
theorem remoteCommandForms : Obligations.RemoteCommandForms := by
  refine ⟨rfl, fun _ _ => rfl, fun _ _ _ _ _ _ => rfl, fun b h => decodeRcmd_invalid ?_⟩
  cases b with
  | nil => rfl
  | cons c l =>
    obtain ⟨hdeny, hallow, hid⟩ := h c l rfl
    rw [Bool.eq_false_iff, ne_eq, legalCommand_cons]
    exact not_or.2 ⟨hdeny, not_or.2 ⟨hallow, hid⟩⟩

/-! ### All formats -/

/-- Settles O1: constructor by constructor; the operands come back by the lemmas on `idOperand`, `selOperand`,
the reserved codes and the remote commands' immediates, and `CMD.INVALID` by its well-formedness. -/
theorem decodeOfEncodeIsIdentity : Obligations.DecodeOfEncodeIsIdentity := by
  intro i f bytes hwf h
  cases i with
  | canDecode id =>
    cases h
    exact idOperand_idBytesLow .canDecode id
  | allowId id =>
    cases h
    exact idOperand_idBytesLow .allowId id
  | snapshot sel =>
    cases h
    exact selOperand_selOfCounter sel
  | hostopReserved low =>
    cases h
    exact decodeHost_reserved low
  | cmdAllowAll interval =>
    cases h
    exact congrArg Decoded.ok (decodeRcmd_allowAll interval)
  | cmdAllowId interval id =>
    cases h
    exact congrArg Decoded.ok (decodeRcmd_allowId interval id)
  | cmdInvalid b =>
    cases h
    exact congrArg Decoded.ok (decodeRcmd_invalid (Bool.not_eq_true' _ ▸ hwf))
  | install | start | stop | uninstall | recv | depth | command | denyAll | allowAll | cmdDenyAll
  | drEntryRx | drEntryErr | drEntryNone | drMsgRtr | drMsgExt | drMsgStd =>
    cases h
    rfl
  | drCount | drExit | sweepStep | shouldDecode | captureClass | tryPush | tryPop | syncW | syncR
  | macRx | macErr | reset => cases h

/-- Settles O5, by running the decoders on the written-out words. -/
theorem writtenWordsDecode : Obligations.WrittenWordsDecode := by
  unfold Obligations.WrittenWordsDecode
  decide

/-! ### Masks on the status value and the control byte -/

/-- A test of one bit by its mask. -/
theorem and_twoPow_eq_iff {w i : Nat} (hi : i < w) (x : BitVec w) :
    x &&& BitVec.twoPow w i = BitVec.twoPow w i ↔ x.getLsbD i = true := by
  refine ⟨fun h => ?_, fun h => by rw [BitVec.and_twoPow, if_pos h]⟩
  have hbit : (x &&& BitVec.twoPow w i).getLsbD i = (BitVec.twoPow w i).getLsbD i := by rw [h]
  simpa [hi] using hbit

/-- A mask applied after a wider one. -/
theorem and_and_mask {x m k : Byte} (h : m &&& k = k) : x &&& m &&& k = x &&& k := by
  rw [BitVec.and_assoc, h]

/-- R97's order, each test by its mask. -/
theorem decodeIsr_eq (v : Byte) :
    decodeIsr v =
      if v &&& 0x01 = 0x01 then .drEntryRx else if v &&& 0xE4 ≠ 0 then .drEntryErr else .drEntryNone :=
  if_congr (and_twoPow_eq_iff (by decide) v).symm rfl rfl

/-- Settles O3: `0xE5` holds each of the masks the branches test. -/
theorem statusSelectsBranch : Obligations.StatusSelectsBranch := by
  intro v
  have hrx : v &&& 0xE5 &&& 0x01 = v &&& 0x01 := and_and_mask rfl
  have herr : v &&& 0xE5 &&& 0xE4 = v &&& 0xE4 := and_and_mask rfl
  refine ⟨fun h => ?_, fun ⟨h0, he⟩ => ?_, fun h => ?_, ?_⟩
  · rw [decodeIsr_eq, if_pos h]
  · rw [decodeIsr_eq, if_neg (by rw [h0]; decide), if_pos he]
  · rw [decodeIsr_eq, ← hrx, ← herr, h]
    rfl
  · rw [decodeIsr_eq, decodeIsr_eq, hrx, herr]

end Sys2Proof

namespace Sys2Proof.Machine

/-! ### The control byte -/

/-- R98's masks, read as bits: 6 (`RTR`) is tested before 7 (`FF`). -/
theorem decodeRxctrl_eq (c : Byte) :
    decodeRxctrl c = if ctlRtr c then .drMsgRtr else if ctlFf c then .drMsgExt else .drMsgStd := by
  have hrtr : c &&& 0x40 = 0x40 ↔ ctlRtr c = true := and_twoPow_eq_iff (i := 6) (by decide) c
  have hff : c &&& 0x80 = 0x80 ↔ ctlFf c = true := and_twoPow_eq_iff (i := 7) (by decide) c
  by_cases h : ctlRtr c = true
  · rw [decodeRxctrl, if_pos (hrtr.2 h), if_pos h]
  · have hlow : c &&& 0x40 = 0 := (BitVec.and_twoPow c 6).trans (if_neg h)
    have hmask : c &&& 0xC0 = c &&& 0x80 := by
      rw [show (0xC0 : Byte) = 0x40 ||| 0x80 from rfl, BitVec.and_or_distrib_left, hlow]
      exact BitVec.zero_or
    rw [decodeRxctrl, if_neg (mt hrtr.1 h), if_neg h, hmask]
    exact if_congr hff rfl rfl

theorem ctlRtr_and_mask (c : Byte) : ctlRtr (c &&& 0xC0) = ctlRtr c :=
  BitVec.getLsbD_and.trans (Bool.and_true _)

theorem ctlFf_and_mask (c : Byte) : ctlFf (c &&& 0xC0) = ctlFf c :=
  BitVec.getLsbD_and.trans (Bool.and_true _)

/-- Settles O4: both tests read bits 6 and 7 alone, and those are what the mask `0xC0` keeps. -/
theorem controlByteSelectsBranch : Obligations.ControlByteSelectsBranch := by
  intro c s
  refine ⟨fun h => ?_, fun h => ?_, fun h => ?_, ?_, fun hr => stepWhen_ready _ _ hr⟩
  · have hrtr : ctlRtr c = true := (and_twoPow_eq_iff (i := 6) (by decide) c).1 h
    simp [decodeRxctrl_eq, captureClass, hrtr]
  · have hrtr : ctlRtr c = false := by rw [← ctlRtr_and_mask, h]; rfl
    have hff : ctlFf c = true := by rw [← ctlFf_and_mask, h]; rfl
    simp [decodeRxctrl_eq, captureClass, hrtr, hff]
  · have hrtr : ctlRtr c = false := by rw [← ctlRtr_and_mask, h]; rfl
    have hff : ctlFf c = false := by rw [← ctlFf_and_mask, h]; rfl
    simp [decodeRxctrl_eq, captureClass, hrtr, hff]
  · rw [decodeRxctrl_eq, decodeRxctrl_eq, ctlRtr_and_mask, ctlFf_and_mask]

/-! ### The Gray code and its inverse -/

theorem shiftRight_one_lt {pw b : Nat} (h : b < 2 ^ (pw + 1)) : b >>> 1 < 2 ^ pw := by
  rw [Nat.shiftRight_eq_div_pow]
  omega

theorem gray_shiftRight (b k : Nat) : gray b >>> k = gray (b >>> k) := by
  simp only [gray, Nat.shiftRight_xor_distrib, ← Nat.shiftRight_add, Nat.add_comm]

/-- The code is linear: each bit of it is an exclusive or of bits. -/
theorem gray_xor (a b : Nat) : gray (a ^^^ b) = gray a ^^^ gray b := by
  simp only [gray, Nat.shiftRight_xor_distrib]
  ac_rfl

theorem gray_lt {pw b : Nat} (h : b < 2 ^ pw) : gray b < 2 ^ pw :=
  Nat.xor_lt_two_pow h ((Nat.shiftRight_le b 1).trans_lt h)

theorem testBit_gray (b i : Nat) : (gray b).testBit i = (b.testBit i ^^ b.testBit (i + 1)) := by
  rw [gray, Nat.testBit_xor, Nat.testBit_shiftRight, Nat.add_comm]

theorem ungray_gray {pw b : Nat} (h : b < 2 ^ pw) : ungray pw (gray b) = b := by
  induction pw generalizing b with
  | zero =>
    rw [Nat.lt_one_iff.1 h]
    rfl
  | succ pw ih =>
    rw [ungray, gray_shiftRight, ih (shiftRight_one_lt h), gray, Nat.xor_xor_cancel_right]

/-- The bits below the first of the inverse are the inverse of the bits below the first. -/
theorem ungray_succ_shiftRight {pw g : Nat} (h : g < 2 ^ (pw + 1)) :
    ungray (pw + 1) g >>> 1 = ungray pw (g >>> 1) := by
  have hshift := shiftRight_one_lt h
  induction pw generalizing g with
  | zero => simp [ungray, Nat.lt_one_iff.1 hshift]
  | succ pw ih =>
    rw [ungray, Nat.shiftRight_xor_distrib, ih hshift (shiftRight_one_lt hshift), ← ungray]

theorem gray_ungray {pw g : Nat} (h : g < 2 ^ pw) : gray (ungray pw g) = g := by
  cases pw with
  | zero =>
    rw [Nat.lt_one_iff.1 h]
    rfl
  | succ pw => rw [gray, ungray_succ_shiftRight h, ungray, Nat.xor_xor_cancel_right]

/-- Codes agree only where the values do. -/
theorem gray_inj {pw a b : Nat} (ha : a < 2 ^ pw) (hb : b < 2 ^ pw) : gray a = gray b ↔ a = b := by
  refine ⟨fun h => ?_, congrArg gray⟩
  rw [← ungray_gray ha, h, ungray_gray hb]

/-- R102's rule for the inverse, from the top bit down. -/
theorem testBit_ungray {pw g : Nat} (h : g < 2 ^ pw) (i : Nat) :
    (ungray pw g).testBit i = ((ungray pw g).testBit (i + 1) ^^ g.testBit i) := by
  have hg : g.testBit i = ((ungray pw g).testBit i ^^ (ungray pw g).testBit (i + 1)) := by
    rw [← testBit_gray, gray_ungray h]
  rw [hg, Bool.xor_comm, Bool.xor_assoc, Bool.xor_self, Bool.xor_false]

/-! ### Consecutive values -/

/-- A value and the next one, the wrap included, differ in the bits from some bit down. -/
theorem xor_succ_mod_two_pow (pw : Nat) {b : Nat} (h : b < 2 ^ (pw + 1)) :
    ∃ i, i < pw + 1 ∧ b ^^^ ((b + 1) % 2 ^ (pw + 1)) = 2 ^ (i + 1) - 1 := by
  induction pw generalizing b with
  | zero => exact ⟨0, Nat.one_pos, by interval_cases b <;> rfl⟩
  | succ pw ih =>
    obtain ⟨k, rfl | rfl⟩ := Nat.even_or_odd' b
    · refine ⟨0, Nat.succ_pos _, ?_⟩
      have hsucc : 2 * k + 1 = 2 * k ^^^ 1 := (Nat.xor_one_of_even (even_two_mul k)).symm
      rw [Nat.mod_eq_of_lt (by omega), hsucc, Nat.xor_xor_cancel_left]
      rfl
    · obtain ⟨i, hi, hk⟩ := ih (b := k) (by omega)
      refine ⟨i + 1, Nat.succ_lt_succ hi, ?_⟩
      have hsucc : (2 * k + 1 + 1) % 2 ^ (pw + 1 + 1) = 2 * ((k + 1) % 2 ^ (pw + 1)) := by
        rw [← Nat.mul_mod_mul_left]
        congr 1
        exact Nat.pow_succ'
      calc (2 * k + 1) ^^^ ((2 * k + 1 + 1) % 2 ^ (pw + 1 + 1))
          = Nat.bit true k ^^^ Nat.bit false ((k + 1) % 2 ^ (pw + 1)) := by rw [hsucc]; rfl
        _ = 2 * (2 ^ (i + 1) - 1) + 1 := by rw [Nat.xor_bit, hk]; rfl
        _ = 2 ^ (i + 1 + 1) - 1 := by have := Nat.two_pow_pos (i + 1); omega

/-- The code of a run of ones is its top bit. -/
theorem gray_two_pow_sub_one (i : Nat) : gray (2 ^ (i + 1) - 1) = 2 ^ i := by
  apply Nat.eq_of_testBit_eq
  intro j
  rw [testBit_gray, Nat.testBit_two_pow_sub_one, Nat.testBit_two_pow_sub_one, Nat.testBit_two_pow]
  grind

/-- The step to the next value turns one bit of the code. -/
theorem gray_succ {pw b : Nat} (hpw : 0 < pw) (h : b < 2 ^ pw) :
    ∃ i, i < pw ∧ gray ((b + 1) % 2 ^ pw) = gray b ^^^ 2 ^ i := by
  obtain ⟨pw, rfl⟩ := Nat.exists_eq_succ_of_ne_zero hpw.ne'
  obtain ⟨i, hi, hxor⟩ := xor_succ_mod_two_pow pw h
  exact ⟨i, hi, by rw [← gray_two_pow_sub_one i, ← hxor, ← gray_xor, Nat.xor_xor_cancel_left]⟩

/-- Settles O41: the inverse is read off `gray (ungray g) = g` bit by bit; the code is linear, so the step to the
next value changes it by the code of a run of ones. -/
theorem grayCode : Obligations.GrayCode := by
  intro pw hpw
  refine ⟨fun g hg => ⟨?_, fun i _ => testBit_ungray hg i, gray_ungray hg⟩, fun b hb =>
    ⟨rfl, gray_lt hb, ungray_gray hb, gray_succ hpw hb⟩⟩
  have htop : (ungray pw g).testBit pw = false := Nat.testBit_lt_two_pow (ungray_lt hg)
  rw [testBit_ungray hg, Nat.sub_add_cancel hpw, htop, Bool.false_xor]

/-! ### The queue's tests -/

/-- The top one of `k + 1` bits turned: half the range up, or down. -/
theorem xor_two_pow_top {k r : Nat} (h : r < 2 * 2 ^ k) :
    r ^^^ 2 ^ k = if r < 2 ^ k then r + 2 ^ k else r - 2 ^ k := by
  have hpos := Nat.two_pow_pos k
  have hlow : (r ^^^ 2 ^ k) % 2 ^ k = r % 2 ^ k := by
    rw [Nat.xor_mod_two_pow, Nat.mod_self, Nat.xor_zero]
  have hhigh : (r ^^^ 2 ^ k) / 2 ^ k = r / 2 ^ k ^^^ 1 := by
    rw [Nat.xor_div_two_pow, Nat.div_self hpos]
  rw [← Nat.div_add_mod (r ^^^ 2 ^ k) (2 ^ k), hlow, hhigh]
  split
  · next hlt => simp [Nat.div_eq_of_lt hlt, Nat.mod_eq_of_lt hlt, Nat.add_comm]
  · next hge =>
    have hdiv : r / 2 ^ k = 1 := Nat.div_eq_of_lt_le (by omega) (by omega)
    rw [hdiv, Nat.mod_eq_sub_div_mul, hdiv]
    simp

/-- Pointers half the range apart differ in the top bit alone. -/
theorem subMod_eq_half_iff {n k a b : Nat} (hn : n = 2 ^ k) (ha : a < 2 * n) (hb : b < 2 * n) :
    subMod a b (2 * n) = n ↔ a = b ^^^ n := by
  subst hn
  rw [subMod_eq ha hb, xor_two_pow_top hb]
  split <;> split <;> omega

/-- R103's mask is the code of the top bit: the top two bits. -/
theorem gray_two_pow_succ (k : Nat) : gray (2 ^ (k + 1)) = 3 <<< k := by
  have hshift : 2 ^ (k + 1) >>> 1 = 2 ^ k := by
    rw [Nat.shiftRight_eq_div_pow, Nat.pow_succ, Nat.pow_one, Nat.mul_div_cancel _ Nat.two_pos]
  calc gray (2 ^ (k + 1)) = 2 <<< k ^^^ 1 <<< k := by
        rw [gray, hshift, Nat.shiftLeft_eq, Nat.one_shiftLeft, Nat.pow_succ']
    _ = 3 <<< k := Nat.shiftLeft_xor_distrib.symm

section

variable {s : State} (hwf : s.cfg.wf = true)

include hwf

/-- The mask of the full test is the code of `N` (R103). -/
theorem gray_n : gray s.cfg.n = 3 <<< (s.cfg.pw - 2) := by
  obtain ⟨hn, htwo⟩ := n_of_wf hwf
  cases hk : Nat.log2 s.cfg.n with
  | zero =>
    rw [hk] at hn
    omega
  | succ k =>
    rw [hk] at hn
    rw [hn, gray_two_pow_succ, Config.pw, hk]
    rfl

/-- The full test in Gray form (R103) is the binary one (R173). -/
theorem fullGray_eq_fullP (hw : s.wptr < ptrMod s) (hg : s.rptrGs < ptrMod s) : fullGray s = fullP s := by
  have hlt : s.cfg.n < ptrMod s := lt_mul_of_one_lt_left (n_pos hwf) Nat.one_lt_two
  have hseen : rSeen s < ptrMod s := two_pow_pw hwf ▸ ungray_lt (two_pow_pw hwf ▸ hg)
  have hhalf : subMod s.wptr (rSeen s) (ptrMod s) = s.cfg.n ↔ s.wptr = rSeen s ^^^ s.cfg.n :=
    subMod_eq_half_iff (n_of_wf hwf).1 hw hseen
  rw [← two_pow_pw hwf] at hw hg hlt hseen
  have hcode : s.rptrGs = gray (rSeen s) := (gray_ungray hg).symm
  rw [Bool.eq_iff_iff, fullGray, fullP, beq_iff_eq, beq_iff_eq, hhalf, hcode, ← gray_n hwf, ← gray_xor,
    gray_inj hw (Nat.xor_lt_two_pow hseen hlt)]

/-- The empty test in Gray form (R103) is the binary one (R174). -/
theorem emptyGray_eq_emptyC (hr : s.rptr < ptrMod s) (hg : s.wptrGs < ptrMod s) :
    emptyGray s = emptyC s := by
  rw [← two_pow_pw hwf] at hr hg
  rw [Bool.eq_iff_iff, emptyGray, emptyC, beq_iff_eq, beq_iff_eq, wSeen, ← gray_inj hr (ungray_lt hg),
    gray_ungray hg]

end

/-- Settles O42: a pointer in range and a synchronised code name the same value, and half the range is the top bit,
whose code is R103's mask. -/
theorem grayTestsAgree : Obligations.GrayTestsAgree := fun _ hwf hw hr hwg hrg =>
  ⟨fullGray_eq_fullP hwf hw hrg, emptyGray_eq_emptyC hwf hr hwg⟩

end Sys2Proof.Machine
end

section
/-!
SUPPORT. The Frame (40_frame.md): what FRAME.BUILD makes (R131, R132), its 13 bytes (R92, R133), the messages that
never become one (R135), and every frame's way through the queue to the sink: what a step can do to the storage,
the pointers and the sink, said once for every row a step runs. With the proofs of the family 40_frame.md.
-/

namespace Sys2Proof.Machine

/-! ### FRAME.BUILD -/

/-- The Frame invariants, each test as the fact it decides (R132). -/
theorem frameOk_iff (f : Frame) :
    frameOk f = true ↔
      f.control &&& 0xF0 = 0 ∧ ctlDlc f.control ≤ 8 ∧ f.id.toNat ≤ 0x7FF ∧
        ∀ i : Fin 8, ctlDlc f.control ≤ i.val → f.payload[i] = 0 := by
  simp only [frameOk, Bool.and_eq_true, beq_iff_eq, decide_eq_true_eq, List.all_eq_true, List.mem_finRange,
    true_imp_iff, Bool.or_eq_true, ← Nat.not_lt, or_iff_not_imp_left, BitVec.le_def, and_assoc]
  rfl

/-- A control byte that holds a length alone (R131 a). -/
theorem control_of_length {n : Nat} (h : n ≤ 8) :
    BitVec.ofNat 8 n &&& 0xF0 = 0 ∧ ctlDlc (BitVec.ofNat 8 n) = n := by
  interval_cases n <;> decide

/-- The two parts of the identifier do not overlap: eleven bits in all (R94). -/
theorem assembleId_toNat (w1 w2 : Byte) : (assembleId w1 w2).toNat = w1.toNat * 8 + w2.toNat / 32 := by
  have h1 := w1.isLt
  have h2 := w2.isLt
  have hhigh : (w1.setWidth 32 <<< 3).toNat = w1.toNat <<< 3 := by
    rw [BitVec.toNat_shiftLeft, BitVec.toNat_setWidth, Nat.shiftLeft_eq, Nat.shiftLeft_eq]
    omega
  have hlow : (w2.setWidth 32 >>> 5).toNat = w2.toNat / 32 := by
    rw [BitVec.toNat_ushiftRight, BitVec.toNat_setWidth, Nat.shiftRight_eq_div_pow]
    omega
  have hlt : w2.toNat / 32 < 2 ^ 3 := by omega
  rw [assembleId, BitVec.toNat_or, hhigh, hlow, ← Nat.shiftLeft_add_eq_or_of_lt hlt, Nat.shiftLeft_eq]

theorem frameBuild_payload (w : RawMsg) (i : Fin 8) :
    (frameBuild w).payload[i] = payloadByte (min (ctlDlc w[0]) 8) i.val (w[3 + i.val]'(by omega)) := by
  fin_cases i <;> rfl

theorem frameBuild_ok (w : RawMsg) : frameOk (frameBuild w) = true := by
  obtain ⟨hhigh, hdlc⟩ := control_of_length (Nat.min_le_right (ctlDlc w[0]) 8)
  have h1 := w[1].isLt
  have h2 := w[2].isLt
  refine (frameOk_iff _).2 ⟨hhigh, hdlc.trans_le (Nat.min_le_right _ _), ?_, fun i hi => ?_⟩
  · change (assembleId w[1] w[2]).toNat ≤ 0x7FF
    rw [assembleId_toNat]
    omega
  · rw [frameBuild_payload]
    exact if_neg (Nat.not_lt.2 (hdlc.symm.trans_le hi))

/-- Settles O48: the identifier's two parts add up, and the payload is read place by place. -/
theorem builtFrame : Obligations.BuiltFrame := fun w =>
  ⟨rfl, assembleId_toNat w[1] w[2], frameBuild_payload w, frameBuild_ok w⟩

/-! ### The 13 bytes -/

/-- Bytes as one value, the first in bits 7:0. -/
def packBytes : (l : List Byte) → BitVec (8 * l.length)
  | [] => 0#0
  | b :: l => packBytes l ++ b

theorem packBytes_byte (l : List Byte) (i : Nat) (h : i < l.length) :
    (packBytes l).extractLsb' (8 * i) 8 = l[i] := by
  induction l generalizing i with
  | nil => cases h
  | cons b l ih =>
    cases i with
    | zero =>
      calc (packBytes l ++ b).extractLsb' 0 8
          = b.extractLsb' 0 8 := BitVec.extractLsb'_append_eq_of_add_le (Nat.le_refl 8)
        _ = b := BitVec.extractLsb'_eq_self
    | succ i =>
      have hi : i < l.length := Nat.lt_of_succ_lt_succ h
      calc (packBytes l ++ b).extractLsb' (8 * i + 8) 8
          = (packBytes l).extractLsb' (8 * i + 8 - 8) 8 :=
            BitVec.extractLsb'_append_eq_of_le (Nat.le_add_left 8 (8 * i))
        _ = l[i] := ih i hi

/-- A word put below a value is its four bytes put there one by one. -/
theorem append_word {n : Nat} (x : BitVec n) (v : Word32) :
    x ++ v =
      x ++ v.extractLsb' 24 8 ++ v.extractLsb' 16 8 ++ v.extractLsb' 8 8 ++ v.extractLsb' 0 8 := by
  apply BitVec.eq_of_getLsbD_eq
  intro i hi
  simp only [BitVec.getLsbD_append, BitVec.getLsbD_extractLsb']
  grind

/-- R92's value of a Frame is R133's string, packed. -/
theorem frameBits_eq_packBytes (f : Frame) : frameBits f = packBytes (frameBytes f) := by
  have htop : (0#0 ++ f.payload[7] : Byte) = f.payload[7] := BitVec.zero_width_append _ _
  simp only [frameBytes, packBytes, htop]
  exact congrArg (· ++ f.control) (append_word _ f.id)

/-- Settles O50: the 104-bit value is the string packed low byte first, and packing loses no byte. -/
theorem frameLayout : Obligations.FrameLayout := by
  intro f
  refine ⟨rfl, fun i hi => ?_, rfl, fun i hi => ?_, fun i => ?_⟩
  · have hlen : i < (frameBytes f).length := hi
    rw [List.getElem?_eq_getElem hlen, frameBits_eq_packBytes]
    exact congrArg some (packBytes_byte _ i hlen).symm
  · interval_cases i <;> rfl
  · fin_cases i <;> rfl

/-! ### The messages that never become a frame -/

section

variable {s : State} {m : RawMsg} {l : List RawMsg}

theorem headClass_cons (h : s.mac.rxq = m :: l) : headClass s = captureClass m[0] := by
  rw [headClass, window_cons h]

theorem msgReady_of_drain (hp : s.drPhase = .drain) (hr : s.drRemaining ≠ 0) : msgReady s = true := by
  rw [msgReady, hp, bne_iff_ne.2 hr]
  rfl

end

/-- Settles O36: both rows end the message at once, and their condition is the class of the control byte. -/
theorem filteredMessageIsReleased : Obligations.FilteredMessageIsReleased := by
  intro s m l hready hp hr hq
  have hmsg := msgReady_of_drain hp hr
  refine ⟨fun hrtr => ?_, fun hrtr hff => ?_⟩
  · have hclass : headClass s = .remote := (headClass_cons hq).trans (if_pos hrtr)
    simp [exec, execDrMsgRtr, hmsg, hclass, stepWhen_ready _ _ hready, finishMessage_cons hq]
  · have hclass : headClass s = .extended := by
      rw [headClass_cons hq, captureClass, ctlRtr, hrtr, ctlFf, hff]
      rfl
    simp [exec, execDrMsgExt, hmsg, hclass, stepWhen_ready _ _ hready, finishMessage_cons hq]

/-! ### Operations that reach the MAC alone -/

/-- Nothing differs but the MAC, the listed answers and the draws. -/
def MacOnly (s t : State) : Prop :=
  ∃ m acks d, t = { s with mac := m, resetAcks := acks, draws := d }

theorem MacOnly.refl (s : State) : MacOnly s s := ⟨_, _, _, rfl⟩

theorem MacOnly.trans {s t u : State} (h : MacOnly s t) (h' : MacOnly t u) : MacOnly s u := by
  obtain ⟨_, _, _, rfl⟩ := h
  obtain ⟨_, _, _, rfl⟩ := h'
  exact ⟨_, _, _, rfl⟩

theorem drawAck_macOnly (s : State) : MacOnly s (drawAck s).2 := by
  obtain ⟨_, _, -, h⟩ | ⟨-, h⟩ := drawAck_cases s <;> rw [h] <;> exact ⟨_, _, _, rfl⟩

theorem release_macOnly (s : State) : MacOnly s (release s) := by
  obtain ⟨_, _, -, h⟩ | ⟨-, h⟩ := release_cases s <;> rw [h] <;> exact ⟨_, _, _, rfl⟩

theorem setStatus_macOnly (b : Nat) (s : State) : MacOnly s (setStatus b s) := by
  obtain ⟨-, h⟩ | ⟨-, h⟩ := setStatus_cases b s <;> rw [h] <;> exact ⟨_, _, _, rfl⟩

theorem writeMode_macOnly (v : Byte) (s : State) : MacOnly s (writeMode v s) := by
  have hack := drawAck_macOnly s
  unfold writeMode
  split
  · dsimp only
    split <;> exact hack.trans ⟨_, _, _, rfl⟩
  · exact ⟨_, _, _, rfl⟩

/-- A register write reaches the MAC and the draws only (R63). -/
theorem regWrite_macOnly (r : RegName) (v : Word32) (s : State) : MacOnly s (regWrite r v s) := by
  cases r with
  | mode => exact writeMode_macOnly _ s
  | cmd =>
    simp only [regWrite]
    split
    · exact release_macOnly s
    · exact .refl s
  | btr0 | btr1 | acr _ | amr _ => simp only [regWrite]; split <;> exact ⟨_, _, _, rfl⟩
  | isr | ier | rxbuf _ | rmc => exact ⟨_, _, _, rfl⟩

theorem writeTiming_macOnly (b : BusTiming) (s : State) : MacOnly s (writeTiming b s) :=
  (regWrite_macOnly .btr0 _ s).trans (regWrite_macOnly .btr1 _ _)

theorem writeCode_macOnly (v : Word32) (s : State) : MacOnly s (writeCode v s) :=
  (regWrite_macOnly (.acr 0) _ s).trans <| (regWrite_macOnly (.acr 1) _ _).trans <|
    (regWrite_macOnly (.acr 2) _ _).trans (regWrite_macOnly (.acr 3) _ _)

theorem writeMask_macOnly (v : Word32) (s : State) : MacOnly s (writeMask v s) :=
  (regWrite_macOnly (.amr 0) _ s).trans <| (regWrite_macOnly (.amr 1) _ _).trans <|
    (regWrite_macOnly (.amr 2) _ _).trans (regWrite_macOnly (.amr 3) _ _)

theorem receive_macOnly (m : RawMsg) (s : State) : MacOnly s (receive m s) := by
  have happend : MacOnly s { s with mac := { s.mac with rxq := s.mac.rxq ++ [m] } } := ⟨_, _, _, rfl⟩
  unfold receive
  split
  · exact happend.trans (setStatus_macOnly 0 _)
  · exact .refl s

/-! ### The traffic: a frame's way through the queue to the sink -/

/-- The parts of the state a frame passes (R25 to R28, R32 a): the storage, the pointers with their copies, the
queue's existence and the sink. -/
structure Traffic where
  cfg : Config
  slots : List Frame
  wptr : Nat
  rptr : Nat
  wptrGs : Nat
  rptrGs : Nat
  qAlloc : Bool
  sink : List (List Byte)

def State.traffic (s : State) : Traffic :=
  ⟨s.cfg, s.slots, s.wptr, s.rptr, s.wptrGs, s.rptrGs, s.qAlloc, s.sink⟩

/-- Everything a step can do to the traffic, each as the update of the state that does it. The one row that pushes
any frame whatever, TRY_PUSH, is run inside DR.MSG.STD alone, with a built frame (R109, R245). -/
inductive TrafficMove (s : State) : State → Prop
  | same : TrafficMove s s
  | pushed (w : RawMsg) : TrafficMove s (tryPush (frameBuild w) s).2
  | sent (f : Frame) (ha : s.qAlloc = true) (hpop : (tryPop s).1 = some f) :
      TrafficMove s { (tryPop s).2 with sink := s.sink ++ [frameBytes f] }
  | syncW : TrafficMove s { s with wptrGs := gray s.wptr }
  | syncR : TrafficMove s { s with rptrGs := gray s.rptr }
  | cleared (alloc : Bool) : TrafficMove s { qClear s with qAlloc := alloc }
  | freed : TrafficMove s (qFree s)
  | reset (slots : List Frame) (hlen : slots.length = s.cfg.n) :
      TrafficMove s { State.resetWith s.cfg with slots := slots }

/-- The traffic in `t` is what one move makes of that in `s`. -/
def TrafficStep (s t : State) : Prop := ∃ u, TrafficMove s u ∧ t.traffic = u.traffic

theorem TrafficMove.step {s u : State} (h : TrafficMove s u) : TrafficStep s u := ⟨u, h, rfl⟩

theorem TrafficStep.of_eq {s t : State} (h : t.traffic = s.traffic) : TrafficStep s t := ⟨s, .same, h⟩

theorem MacOnly.traffic_eq {s t : State} (h : MacOnly s t) : t.traffic = s.traffic := by
  obtain ⟨_, _, _, rfl⟩ := h
  rfl

theorem startSweep_traffic (k : SweepKind) (s : State) : (startSweep k s).traffic = s.traffic := by
  unfold startSweep
  split <;> rfl

theorem zeroCounter_traffic (sel : CounterSel) (s : State) : (zeroCounter sel s).traffic = s.traffic := by
  cases sel <;> rfl

theorem takeInterrupt_traffic (s : State) : (takeInterrupt s).2.traffic = s.traffic := by
  simp only [takeInterrupt_eq, State.traffic]

theorem finishMessage_traffic (s : State) : (finishMessage s).traffic = s.traffic :=
  (regWrite_macOnly .cmd (cmdRrb.setWidth 32) s).traffic_eq

theorem installConfigure_traffic (s : State) : (installConfigure s).traffic = s.traffic :=
  calc (installConfigure s).traffic
      = (writeMask s.cfg.filter.mask (writeCode s.cfg.filter.code (writeTiming s.cfg.timing s))).traffic :=
        (regWrite_macOnly .ier (enInstall.setWidth 32) _).traffic_eq
    _ = (writeCode s.cfg.filter.code (writeTiming s.cfg.timing s)).traffic :=
        (writeMask_macOnly _ _).traffic_eq
    _ = s.traffic := ((writeTiming_macOnly _ s).trans (writeCode_macOnly _ _)).traffic_eq

/-- INSTALL clears the queue, and keeps it unless the MAC declines (R201). -/
theorem installBody_trafficStep (s : State) : TrafficStep s (installBody s) := by
  have hmode := (regWrite_macOnly .mode ((modeByte true s.cfg.filter.single).setWidth 32)
    (qAllocate s)).traffic_eq
  have hfree (t : State) :
      (raise .bringUpFailure [] (qFree t)).traffic = { t.traffic with qAlloc := false } := rfl
  rw [installBody_eq]
  dsimp only
  split
  · exact ⟨_, .cleared true, (installConfigure_traffic _).trans hmode⟩
  · exact ⟨_, .cleared false, by rw [hfree, hmode]; rfl⟩

/-- START clears the queue (R202). -/
theorem startBody_trafficStep (s : State) : TrafficStep s (startBody s) :=
  ⟨_, .cleared s.qAlloc, (regWrite_macOnly .mode ((modeByte false (modeAfm s.mac.mode)).setWidth 32)
    (clearIsr (qClear s))).traffic_eq⟩

/-- RECV sends the frame it pops, if there is one (R205). -/
theorem recvBody_trafficStep {s : State} (ha : s.qAlloc = true) : TrafficStep s (recvBody s) := by
  unfold recvBody
  split
  · next hnone =>
    cases he : emptyC s with
    | true => exact .of_eq (by rw [tryPop_empty he]; rfl)
    | false => simp [tryPop_some he] at hnone
  · next f hf => exact ⟨_, .sent f ha hf, rfl⟩

/-- The admission test writes the table only, so the push is that of the state before it (R143, R245). -/
theorem admitMessage_trafficStep (w : RawMsg) (s : State) : TrafficStep s (admitMessage w s) := by
  have hpush (t : State) : (pushAdmitted w t).traffic = (tryPush (frameBuild w) t).2.traffic := by
    simp only [pushAdmitted]
    split <;> rfl
  have htab (l : List Entry) :
      (tryPush (frameBuild w) { s with tab := l }).2.traffic = (tryPush (frameBuild w) s).2.traffic := by
    have hfull : fullP { s with tab := l } = fullP s := rfl
    simp only [tryPush, hfull]
    split <;> rfl
  unfold admitMessage
  split
  · exact ⟨_, .pushed w, (hpush _).trans (htab _)⟩
  · exact .of_eq rfl

theorem powerOn_trafficStep (s : State) : TrafficStep s (powerOn s) := by
  have hlen : ((List.range s.cfg.n).map (Config.freeSlot s.draws)).length = s.cfg.n := by simp
  simp only [powerOn, checkConfig]
  split <;> exact ⟨_, .reset _ hlen, rfl⟩

section

variable {s : State}

theorem leads_traffic {t : State} (h : t.traffic = s.traffic) : Leads (TrafficStep s) (.next t) :=
  leads_next (.of_eq h)

theorem leads_sweepStart_traffic (m : String) (k : SweepKind) :
    Leads (TrafficStep s) (hostGated m s (.next (setRet .unit (startSweep k s)))) :=
  leads_hostGated (leads_traffic (startSweep_traffic k s))

end

/-- No row a step runs does more to the traffic than `TrafficStep` says. -/
theorem exec_trafficStep {i : Instr} (hi : steppable i = true) (s : State) :
    Leads (TrafficStep s) (exec i s) := by
  cases i with
  | install =>
    exact leads_hostGated (leads_ite
      (fun _ => leads_heldOr (.of_eq rfl) (leads_next (installBody_trafficStep s))) fun _ => leads_refused _)
  | start =>
    exact leads_hostGated (leads_ite
      (fun _ => leads_heldOr (.of_eq rfl) (leads_next (startBody_trafficStep s))) fun _ => leads_refused _)
  | uninstall =>
    exact leads_hostGated (leads_ite (fun _ => leads_refused _)
      fun _ => leads_heldOr (.of_eq rfl) (leads_next ⟨_, .freed, rfl⟩))
  | recv =>
    exact leads_hostGated (leads_ite (fun ha => leads_next (recvBody_trafficStep ha)) fun _ => leads_refused _)
  | stop | depth => exact leads_hostGated (leads_ite (fun _ => leads_traffic rfl) fun _ => leads_refused _)
  | canDecode _ | allowId _ => exact leads_hostGated (leads_traffic rfl)
  | snapshot sel => exact leads_hostGated (leads_traffic (zeroCounter_traffic sel s))
  | denyAll | allowAll => exact leads_sweepStart_traffic _ _
  | command b =>
    simp only [exec, execCommand]
    split
    · exact leads_sweepStart_traffic _ _
    · exact leads_sweepStart_traffic _ _
    · exact leads_hostGated (leads_traffic rfl)
    · exact leads_hostGated (leads_traffic rfl)
  | hostopReserved _ => exact leads_refused _
  | drEntryRx | drEntryErr | drEntryNone => exact leads_stepWhen (.of_eq (takeInterrupt_traffic s))
  | drCount | drExit | sweepStep => exact leads_stepWhen (.of_eq rfl)
  | drMsgRtr | drMsgExt => exact leads_stepWhen (.of_eq (finishMessage_traffic s))
  | drMsgStd =>
    obtain ⟨u, hmove, hu⟩ := admitMessage_trafficStep (window s) s
    exact leads_stepWhen ⟨u, hmove, (finishMessage_traffic _).trans hu⟩
  | syncW => exact leads_stepWhen TrafficMove.syncW.step
  | syncR => exact leads_stepWhen TrafficMove.syncR.step
  | macRx m => exact leads_macWhen (.of_eq (receive_macOnly m s).traffic_eq)
  | macErr b => exact leads_macWhen (.of_eq (setStatus_macOnly _ s).traffic_eq)
  | reset => exact leads_ite (fun _ => leads_refused _) fun _ => leads_next (powerOn_trafficStep s)
  | cmdDenyAll | cmdAllowAll | cmdAllowId | cmdInvalid | shouldDecode | captureClass | tryPush | tryPop =>
    cases hi

/-! ### The Frame invariants along the way -/

/-- What a move keeps: the parameters and the storage's shape (R25). -/
theorem TrafficMove.keeps_storage {s u : State} (h : TrafficMove s u) (hst : storageWf s = true) :
    u.cfg = s.cfg ∧ storageWf u = true := by
  cases h with
  | pushed w => exact ⟨congrArg View.cfg (tryPush_view _ s), (tryPush_storage _ s).trans hst⟩
  | sent => exact ⟨congrArg View.cfg (tryPop_view s), (tryPop_storage s).trans hst⟩
  | reset slots hlen => exact ⟨rfl, beq_iff_eq.2 hlen⟩
  | same | syncW | syncR | cleared | freed => exact ⟨rfl, hst⟩

/-- The Frame invariants are read off the traffic: every place of the contents lies in the storage (R178 d). -/
theorem frameInv_of_traffic_eq {s t : State} (hwf : s.cfg.wf = true) (hst : storageWf s = true)
    (h : t.traffic = s.traffic) (hf : FrameInv s) : FrameInv t := by
  obtain ⟨hcfg, hslots, hw, hr, -, -, ha, hsink⟩ := Traffic.mk.inj h
  have hread (k : Nat) : readSlot t (k % s.cfg.n) = readSlot s (k % s.cfg.n) := by
    have hlt : k % s.cfg.n < s.slots.length :=
      (Nat.mod_lt k (n_pos hwf)).trans_eq (eq_of_beq hst).symm
    simp [readSlot, hslots, List.getElem?_eq_getElem hlt]
  have hcontents : contents t = contents s := by
    simp only [contents, occ, ptrMod, hcfg, hw, hr, hread]
  rwa [FrameInv, hcontents, ha, hsink]

/-- A queue just cleared holds nothing (R172). -/
theorem contents_of_cleared {s : State} (hw : s.wptr = 0) (hr : s.rptr = 0) : contents s = [] := by
  have hocc : occ s = 0 := by simp [occ, subMod, hw, hr]
  simp [contents, hocc]

section

variable {s : State} (hwf : s.cfg.wf = true) (hq : QueueInv s) (hf : FrameInv s)

include hwf hq hf

/-- A push adds the built frame behind the others, or nothing (R67, R131). -/
theorem frameInv_tryPush (w : RawMsg) : FrameInv (tryPush (frameBuild w) s).2 := by
  obtain ⟨hqueued, hsent⟩ := hf
  cases hfull : fullP s with
  | true =>
    rw [tryPush_full _ hfull]
    exact ⟨hqueued, hsent⟩
  | false =>
    refine ⟨fun ha => ?_, by simpa only [tryPush_room _ hfull] using hsent⟩
    have ha' : s.qAlloc = true := by simpa only [tryPush_room _ hfull] using ha
    rw [contents_tryPush_room hwf hq ha' _ hfull, List.forall_mem_append, List.forall_mem_singleton]
    exact ⟨hqueued ha', frameBuild_ok w⟩

/-- A frame sent was the oldest of the queue (R67, R205). -/
theorem frameInv_sent {f : Frame} (ha : s.qAlloc = true) (hpop : (tryPop s).1 = some f) :
    FrameInv { (tryPop s).2 with sink := s.sink ++ [frameBytes f] } := by
  obtain ⟨hqueued, hsent⟩ := hf
  obtain ⟨-, -, hpops, -⟩ := queueIsFifo s f hwf hq ha
  have hcons : contents s = f :: contents (tryPop s).2 := hpops f hpop
  obtain ⟨hfirst, hrest⟩ := List.forall_mem_cons.1 (hcons ▸ hqueued ha)
  refine ⟨fun _ => hrest, ?_⟩
  exact List.forall_mem_append.2 ⟨hsent, List.forall_mem_singleton.2 ⟨f, hfirst, rfl⟩⟩

theorem TrafficMove.frameInv {u : State} (h : TrafficMove s u) : FrameInv u := by
  cases h with
  | same | syncW | syncR => exact hf
  | pushed w => exact frameInv_tryPush hwf hq hf w
  | sent f ha hpop => exact frameInv_sent hwf hq hf ha hpop
  | cleared alloc =>
    refine ⟨fun _ => ?_, hf.2⟩
    rw [contents_of_cleared rfl rfl]
    exact List.forall_mem_nil _
  | freed => exact ⟨fun ha => Bool.noConfusion ha, hf.2⟩
  | reset => exact ⟨fun ha => Bool.noConfusion ha, List.forall_mem_nil _⟩

theorem TrafficStep.frameInv {t : State} (h : TrafficStep s t) : FrameInv t := by
  obtain ⟨u, hmove, ht⟩ := h
  obtain ⟨hcfg, hst⟩ := hmove.keeps_storage hq.1
  exact frameInv_of_traffic_eq (hcfg ▸ hwf) hst ht (hmove.frameInv hwf hq hf)

end

/-- Where a step runs from, the queue and the sink are as they were. -/
theorem RunsFrom.keeps_frames {s s' : State} (h : RunsFrom s s') :
    s'.cfg = s.cfg ∧ (QueueInv s' ↔ QueueInv s) ∧ (FrameInv s' ↔ FrameInv s) := by
  obtain ⟨h, -⟩ := h
  rw [h]
  exact ⟨rfl, .rfl, .rfl⟩

/-- Settles O49: every frame pushed is a built one, every frame sent comes from the queue, and no other step moves
a frame. -/
theorem frameInvariantKept : Obligations.FrameInvariantKept := by
  intro s t hwf hq hf hstep
  obtain ⟨i, s', hi, hs, hx⟩ | hs := step_cases hstep
  · obtain ⟨hcfg, hqueue, hframes⟩ := hs.keeps_frames
    have htraffic : TrafficStep s' t := exec_trafficStep hi s' t hx
    exact htraffic.frameInv (hcfg ▸ hwf) (hqueue.2 hq) (hframes.2 hf)
  · obtain ⟨-, -, hframes⟩ := hs.keeps_frames
    exact hframes.2 hf

end Sys2Proof.Machine
end

section
/-!
SUPPORT. The decoder (41_decoder.md): the binary search on a sorted table (R141), the admission test and its law
of decimation (R143, R156), the sweep of the table-wide commands (R144, R145, R147), and the remote commands
(R151 to R155). With the proofs of the family 41_decoder.md.
-/

namespace Sys2Proof.Machine

/-! ### A sorted table -/

theorem ascending_iff_pairwise (l : List Word32) : ascending l = true ↔ l.Pairwise (· < ·) := by
  rw [← List.isChain_iff_pairwise]
  induction l with
  | nil => simp [ascending]
  | cons a l ih =>
    cases l with
    | nil => simp [ascending]
    | cons b l => simp [ascending, ih]

/-- Replacing an entry by one with its identifier keeps the column of identifiers. -/
theorem map_id_set {tab : List Entry} {k : Nat} {e e' : Entry} (he : tab[k]? = some e) (hid : e'.id = e.id) :
    (tab.set k e').map (·.id) = tab.map (·.id) := by
  have hsame : (tab.map (·.id))[k]? = some e'.id := by simp [he, hid]
  obtain ⟨hk, hget⟩ := List.getElem?_eq_some_iff.1 hsame
  rw [List.map_set, ← hget, List.set_getElem_self]

section

variable {tab : List Entry} {id : Word32} {k : Nat} {e : Entry}

/-- In a sorted table the identifiers are ordered as their places. -/
theorem id_lt_of_lt (hs : ascending (tab.map (·.id)) = true) {j : Nat} {e' : Entry} (hj : tab[j]? = some e)
    (hk : tab[k]? = some e') (hjk : j < k) : e.id < e'.id := by
  obtain ⟨hj, rfl⟩ := List.getElem?_eq_some_iff.1 hj
  obtain ⟨hk, rfl⟩ := List.getElem?_eq_some_iff.1 hk
  have hpairs := List.pairwise_map.1 ((ascending_iff_pairwise _).1 hs)
  exact List.pairwise_iff_getElem.1 hpairs j k _ _ hjk

/-- The search finds an entry of its range: each halving keeps the side on which the entry lies (R141). -/
theorem search_finds (hs : ascending (tab.map (·.id)) = true) (he : tab[k]? = some e) (hid : e.id = id)
    {fuel lo hi : Nat} (hlo : lo ≤ k) (hhi : k < hi) (hlen : hi ≤ tab.length) (hfuel : hi - lo ≤ fuel) :
    search tab id fuel lo hi = some k := by
  induction fuel generalizing lo hi with
  | zero => omega
  | succ fuel ih =>
    obtain ⟨m, hm⟩ : ∃ m, tab[(lo + hi) / 2]? = some m := ⟨_, List.getElem?_eq_getElem (by omega)⟩
    simp only [search, if_pos (show lo < hi by omega), hm]
    obtain hlt | heq | hgt := Nat.lt_trichotomy ((lo + hi) / 2) k
    · have hless : m.id < id := hid ▸ id_lt_of_lt hs hm he hlt
      rw [if_neg (BitVec.ne_of_lt hless), if_pos hless]
      exact ih (by omega) hhi hlen (by omega)
    · obtain rfl : m = e := Option.some.inj (hm.symm.trans (heq ▸ he))
      rw [if_pos hid, heq]
    · have hmore : id < m.id := hid ▸ id_lt_of_lt hs he hm hgt
      rw [if_neg (BitVec.ne_of_lt hmore).symm, if_neg (BitVec.lt_asymm hmore)]
      exact ih hlo hgt (by omega) (by omega)

theorem lookup_of_entry (hs : ascending (tab.map (·.id)) = true) (he : tab[k]? = some e) (hid : e.id = id) :
    lookup tab id = some k :=
  search_finds hs he hid k.zero_le (List.getElem?_eq_some_iff.1 he).1 le_rfl (Nat.sub_le _ _)

theorem lookup_of_unwatched (h : ∀ e ∈ tab, e.id ≠ id) : lookup tab id = none := by
  rw [Option.eq_none_iff_forall_ne_some]
  intro k hk
  obtain ⟨-, e, he, hid⟩ := lookup_some hk
  exact h e (List.mem_of_getElem? he) hid

theorem lookup_isSome_iff (hs : ascending (tab.map (·.id)) = true) :
    (lookup tab id).isSome = true ↔ ∃ e ∈ tab, e.id = id := by
  constructor
  · intro h
    obtain ⟨k, hk⟩ := Option.isSome_iff_exists.1 h
    obtain ⟨-, e, he, hid⟩ := lookup_some hk
    exact ⟨e, List.mem_of_getElem? he, hid⟩
  · rintro ⟨e, hmem, hid⟩
    obtain ⟨k, hk⟩ := List.mem_iff_getElem?.1 hmem
    rw [lookup_of_entry hs hk hid]
    rfl

end

/-- Settles O24: what the search answers carries the identifier, and it finds an entry that does. -/
theorem lookupFindsTheEntry : Obligations.LookupFindsTheEntry := fun _ _ hs _ =>
  ⟨fun h => (lookup_some h).2, fun ⟨_, he, hid⟩ => lookup_of_entry hs he hid⟩

/-- Settles O22: the answer is whether the search finds anything. -/
theorem canDecodeEffect : Obligations.CanDecodeEffect := by
  intro s id hr hs
  have hmem : (lookup s.tab id).isSome = decide (∃ e ∈ s.tab, e.id = id) := by
    rw [Bool.eq_iff_iff, decide_eq_true_iff, lookup_isSome_iff hs]
  simp only [exec, execCanDecode, hostGated_ready _ _ hr, hmem, setRet]

/-! ### The admission test -/

theorem admitEntry_disabled {e : Entry} (h : e.rate = 0) : admitEntry e = (false, e) := if_pos h

theorem admitEntry_admits {e : Entry} (h0 : e.rate ≠ 0) (h : e.rate ≤ e.count + 1) :
    admitEntry e = (true, { e with count := 0 }) := by
  rw [admitEntry, if_neg h0, if_pos h]

theorem admitEntry_counts {e : Entry} (h : e.count + 1 < e.rate) :
    admitEntry e = (false, { e with count := e.count + 1 }) := by
  rw [admitEntry, if_neg (by omega), if_neg (by omega)]

theorem admission_of_unwatched {tab : List Entry} {id : Word32} (h : ∀ e ∈ tab, e.id ≠ id) :
    admission tab id = (false, tab) := by
  simp [admission, lookup_of_unwatched h]

section

variable {tab : List Entry} {id : Word32} {k : Nat} {e : Entry}
  (hs : ascending (tab.map (·.id)) = true) (he : tab[k]? = some e) (hid : e.id = id)

include hs he hid

theorem admission_of_entry : admission tab id = ((admitEntry e).1, tab.set k (admitEntry e).2) := by
  simp [admission, lookup_of_entry hs he hid, he]

theorem admission_of_disabled (h : e.rate = 0) : admission tab id = (false, tab) := by
  obtain ⟨hk, rfl⟩ := List.getElem?_eq_some_iff.1 he
  rw [admission_of_entry hs he hid, admitEntry_disabled h, List.set_getElem_self]

end

theorem exec_shouldDecode {s : State} (hr : rxcReady s = true) {id : Word32} {b : Bool} {tab : List Entry}
    (h : admission s.tab id = (b, tab)) :
    exec (.shouldDecode id) s = .next { s with tab := tab, ret := .bool b } := by
  simp only [exec, execShouldDecode, stepWhen_ready _ _ hr, shouldDecode, h, setRet]

/-- Settles O25: the row answers as the admission test does, and that test is `admitEntry` on the entry found. -/
theorem shouldDecodeEffect : Obligations.ShouldDecodeEffect := by
  refine fun s id hr hs => ⟨fun h => exec_shouldDecode hr (admission_of_unwatched h), fun k e he hid => ?_⟩
  have hadm := admission_of_entry hs he hid
  refine ⟨fun h => exec_shouldDecode hr (admission_of_disabled hs he hid h), fun h0 h => ?_, fun h => ?_⟩
  · rw [admitEntry_admits h0 h] at hadm
    exact exec_shouldDecode hr hadm
  · rw [admitEntry_counts h] at hadm
    exact exec_shouldDecode hr hadm

/-! ### The law of decimation -/

theorem admitMany_succ {id : Word32} {tab tab' : List Entry} {b : Bool} (h : admission tab id = (b, tab'))
    (n : Nat) : admitMany id (n + 1) tab = (b :: (admitMany id n tab').1, (admitMany id n tab').2) := by
  rw [admitMany, h]

/-- A test that is refused and changes nothing is refused for ever. -/
theorem admitMany_of_refused {id : Word32} {tab : List Entry} (h : admission tab id = (false, tab)) (n : Nat) :
    admitMany id n tab = (List.replicate n false, tab) := by
  induction n with
  | zero => rfl
  | succ n ih => rw [admitMany_succ h, ih, List.replicate_succ]

/-- With `n + 1` tests to go to the rate, `n` are refused and the next admits and resets the count (R156). -/
theorem admitMany_to_admission {id : Word32} {k n : Nat} {tab : List Entry} {e : Entry}
    (hs : ascending (tab.map (·.id)) = true) (he : tab[k]? = some e) (hid : e.id = id)
    (hn : e.count + (n + 1) = e.rate) :
    admitMany id (n + 1) tab = (List.replicate n false ++ [true], tab.set k { e with count := 0 }) := by
  induction n generalizing tab e with
  | zero =>
    have hadm := admission_of_entry hs he hid
    rw [admitEntry_admits (by omega) (by omega)] at hadm
    exact admitMany_succ hadm 0
  | succ n ih =>
    have hadm := admission_of_entry hs he hid
    rw [admitEntry_counts (by omega)] at hadm
    have hids : (tab.set k { e with count := e.count + 1 }).map (·.id) = tab.map (·.id) := map_id_set he rfl
    have hnext : (tab.set k { e with count := e.count + 1 })[k]? = some { e with count := e.count + 1 } :=
      List.getElem?_set_self (List.getElem?_eq_some_iff.1 he).1
    have hcount : e.count + 1 + (n + 1) = e.rate := by omega
    rw [admitMany_succ hadm, ih (hids ▸ hs) hnext hid hcount, List.set_set]
    rfl

/-- Settles O26: a fresh entry is `rate` tests from its admission, which leaves it fresh. -/
theorem decimationLaw : Obligations.DecimationLaw := by
  intro tab id hs
  refine ⟨fun k e he hid hfresh hrate => ?_,
    fun k e he hid h => admitMany_of_refused (admission_of_disabled hs he hid h),
    fun h => admitMany_of_refused (admission_of_unwatched h)⟩
  obtain ⟨n, hn⟩ : ∃ n, e.rate = n + 1 := Nat.exists_eq_add_one.2 hrate
  have hsame : tab.set k { e with count := 0 } = tab := by
    obtain ⟨hk, rfl⟩ := List.getElem?_eq_some_iff.1 he
    rw [← hfresh, List.set_getElem_self]
  rw [hn, admitMany_to_admission hs he hid (by omega), hsame, Nat.add_sub_cancel]

/-! ### The sweep -/

/-- What a sweep does to one entry (R147). -/
def SweepKind.update (k : SweepKind) : Entry → Entry :=
  match k with
  | .none => id
  | .deny => denyEntry
  | .allow => allowEntry

theorem sweepTable_eq (k : SweepKind) (i : Nat) (tab : List Entry) :
    sweepTable k i tab = tab.modify i k.update := by
  cases k with
  | none => exact (List.modify_id i tab).symm
  | deny | allow => rfl

theorem modify_of_entry {α : Type} {l : List α} {k : Nat} {a : α} (h : l[k]? = some a) (f : α → α) :
    l.modify k f = l.set k (f a) := by
  simp [List.modify_eq_set_getElem?, h]

/-- Rewriting the places from `k` on is rewriting place `k` and then those from `k + 1` on. -/
theorem map_from_succ {α : Type} (f : α → α) {k : Nat} {l : List α} (h : k < l.length) :
    (l.modify k f).take (k + 1) ++ ((l.modify k f).drop (k + 1)).map f = l.take k ++ (l.drop k).map f := by
  have hsplit : l.modify k f = (l.take k ++ [f l[k]]) ++ l.drop (k + 1) := by
    rw [List.modify_eq_take_cons_drop h, List.append_cons]
  have hlen : (l.take k ++ [f l[k]]).length = k + 1 := by simp [h.le]
  rw [hsplit, List.take_left' hlen, List.drop_left' hlen, List.drop_eq_getElem_cons h, List.map_cons,
    List.append_assoc, List.singleton_append]

/-- A sweep rewrites every entry from its place on, and ends (R147). -/
theorem sweepMany_to_end {n : Nat} {s : State} (hn : s.swK + (n + 1) = s.tab.length) :
    sweepMany (n + 1) s = { s with
      tab := s.tab.take s.swK ++ (s.tab.drop s.swK).map s.swKind.update
      swK := s.tab.length
      swKind := .none } := by
  induction n generalizing s with
  | zero =>
    have hend : (s.tab.modify s.swK s.swKind.update).length = s.swK + 1 := by simp [hn]
    have hmap := map_from_succ s.swKind.update (show s.swK < s.tab.length by omega)
    rw [List.take_of_length_le hend.le, List.drop_of_length_le hend.le, List.map_nil, List.append_nil] at hmap
    rw [sweepMany, sweepMany, sweepOne, sweepTable_eq, hmap, if_pos hn, hn]
  | succ n ih =>
    have hmap := map_from_succ s.swKind.update (show s.swK < s.tab.length by omega)
    have hone : sweepOne s = { s with
        tab := s.tab.modify s.swK s.swKind.update, swK := s.swK + 1 } := by
      rw [sweepOne, sweepTable_eq, if_neg (by omega)]
    rw [sweepMany, hone, ih (by simp only [List.length_modify]; omega)]
    simp only [hmap, List.length_modify]

/-- Settles O30: a sweep from entry 0 rewrites every entry. -/
theorem sweepOutcome : Obligations.SweepOutcome := by
  intro s hne hk
  obtain ⟨n, hn⟩ : ∃ n, s.tab.length = n + 1 := Nat.exists_eq_add_one.2 (List.length_pos_iff.2 hne)
  have hsweep := sweepMany_to_end (s := s) (n := n) (by omega)
  rw [hk, List.take_zero, List.drop_zero, List.nil_append, ← hn] at hsweep
  refine ⟨fun h => ?_, fun h => ?_⟩
  · rw [hsweep, h]
    rfl
  · rw [hsweep, h]
    rfl

theorem stepWhen_disabled {s : State} (m : String) (s' : State) (h : rxcReady s = true) :
    stepWhen m false s s' = .refused (.notEnabled m) := by
  obtain ⟨hp, hf⟩ := rxcReady_iff.1 h
  exact gated_ready _ hp hf

theorem exec_sweepStep {s : State} {e : Entry} (hr : rxcReady s = true) (hk : s.swKind ≠ .none)
    (he : s.tab[s.swK]? = some e) :
    exec .sweepStep s = .next { s with
      tab := s.tab.set s.swK (s.swKind.update e)
      swK := s.swK + 1
      swKind := if s.swK + 1 = s.tab.length then .none else s.swKind } := by
  rw [exec, execSweepStep, bne_iff_ne.2 hk, stepWhen_ready _ _ hr, sweepOne, sweepTable_eq,
    modify_of_entry he]

/-- Settles O29: the step writes the entry it stands at, as its kind says. -/
theorem sweepStepEffect : Obligations.SweepStepEffect := by
  refine fun s hr => ⟨fun h => ?_, fun e he => ⟨fun h => ?_, fun h => ?_⟩⟩
  · rw [exec, execSweepStep, h]
    exact stepWhen_disabled _ _ hr
  · rw [exec_sweepStep hr (by simp [h]) he, h]
    rfl
  · rw [exec_sweepStep hr (by simp [h]) he, h]
    rfl

/-! ### The mutations and the remote commands -/

theorem startSweep_of_ne_nil {s : State} (k : SweepKind) (h : s.tab ≠ []) :
    startSweep k s = { s with swKind := k, swK := 0 } := if_neg (mt List.length_eq_zero_iff.1 h)

theorem startSweep_of_nil {s : State} (k : SweepKind) (h : s.tab = []) : startSweep k s = s :=
  if_pos (List.length_eq_zero_iff.2 h)

/-- Settles O27: each of the four rows starts its sweep, which an empty table does not need. -/
theorem tableWideCommandsStartSweep : Obligations.TableWideCommandsStartSweep := by
  intro s iv hr
  have hdeny : exec .denyAll s = .next (setRet .unit (startSweep .deny s)) := hostGated_ready _ _ hr
  have hcmdDeny : exec .cmdDenyAll s = .next (setRet .unit (startSweep .deny s)) := hostGated_ready _ _ hr
  have hallow : exec .allowAll s = .next (setRet .unit (startSweep .allow s)) := hostGated_ready _ _ hr
  have hcmdAllow : exec (.cmdAllowAll iv) s = .next (setRet .unit (startSweep .allow s)) :=
    hostGated_ready _ _ hr
  rw [hdeny, hcmdDeny, hallow, hcmdAllow]
  constructor
  · intro h
    rw [startSweep_of_ne_nil _ h, startSweep_of_ne_nil _ h]
    exact ⟨rfl, rfl, rfl, rfl⟩
  · intro h
    rw [startSweep_of_nil _ h, startSweep_of_nil _ h]
    exact ⟨rfl, rfl, rfl, rfl⟩

theorem allowInTable_of_unwatched {tab : List Entry} {id : Word32} (h : ∀ e ∈ tab, e.id ≠ id) :
    allowInTable tab id = tab := by
  rw [allowInTable, lookup_of_unwatched h]

theorem allowInTable_of_entry {tab : List Entry} {id : Word32} {k : Nat} {e : Entry}
    (hs : ascending (tab.map (·.id)) = true) (he : tab[k]? = some e) (hid : e.id = id) :
    allowInTable tab id = tab.set k (allowEntry e) := by
  rw [allowInTable, lookup_of_entry hs he hid]
  exact modify_of_entry he _

/-- Settles O28: both rows rewrite the table alone, at the entry found. -/
theorem allowIdEffect : Obligations.AllowIdEffect := by
  intro s id iv hr hs
  have hhost : exec (.allowId id) s = .next { s with tab := allowInTable s.tab id, ret := .unit } :=
    hostGated_ready _ _ hr
  have hcmd : exec (.cmdAllowId iv id) s = .next { s with tab := allowInTable s.tab id, ret := .unit } :=
    hostGated_ready _ _ hr
  rw [hhost, hcmd]
  refine ⟨fun h => ?_, fun k e he hid => ?_⟩
  · rw [allowInTable_of_unwatched h]
    exact ⟨rfl, rfl⟩
  · rw [allowInTable_of_entry hs he hid]
    exact ⟨rfl, rfl⟩

theorem exec_cmdInvalid {s : State} (b : List Byte) (hr : hostReady s = true) :
    exec (.cmdInvalid b) s =
      .next { s with log := s.log ++ [⟨.badCommand, b.head?, b.length⟩], ret := .unit } :=
  hostGated_ready _ _ hr

/-- What a remote command can decode to: one of the three commands, or CMD.INVALID with its own bytes (R95). -/
theorem decodeRcmd_cases (b : List Byte) :
    (legalCommand b = true ∧ (decodeRcmd b = .cmdDenyAll ∨ (∃ iv, decodeRcmd b = .cmdAllowAll iv) ∨
      ∃ iv id, decodeRcmd b = .cmdAllowId iv id)) ∨
    (legalCommand b = false ∧ decodeRcmd b = .cmdInvalid b) := by
  cases h : legalCommand b with
  | false => exact .inr ⟨rfl, decodeRcmd_invalid h⟩
  | true =>
    refine .inl ⟨rfl, ?_⟩
    cases b with
    | nil => cases h
    | cons c l =>
      obtain ⟨rfl, hl⟩ | ⟨rfl, hl⟩ | ⟨rfl, hl⟩ := (legalCommand_cons c l).1 h
      · obtain rfl := List.length_eq_zero_iff.1 hl
        exact .inl rfl
      · obtain ⟨hi, lo, rfl⟩ := List.length_eq_two.1 hl
        exact .inr (.inl ⟨_, rfl⟩)
      · match l, hl with
        | [hi, lo, b3, b2, b1, b0], _ => exact .inr (.inr ⟨_, _, rfl⟩)

/-- COMMAND is the row its bytes decode to (R151). -/
theorem exec_command (b : List Byte) (s : State) : exec (.command b) s = exec (decodeRcmd b) s := by
  obtain ⟨-, h | ⟨iv, h⟩ | ⟨iv, id, h⟩⟩ | ⟨-, h⟩ := decodeRcmd_cases b
  all_goals
    rw [exec, execCommand, h]
    rfl

/-- Settles O31: bytes that are no legal command decode to CMD.INVALID, which appends to the log alone. -/
theorem badCommandIsLogged : Obligations.BadCommandIsLogged := by
  obtain ⟨-, -, -, hinvalid⟩ := remoteCommandForms
  refine fun s b hr => ⟨exec_cmdInvalid b hr, fun h => ?_⟩
  rw [exec_command, hinvalid b h, exec_cmdInvalid b hr]

/-- All that a remote command may change: the table, the sweep, the log and the returned value (R151). -/
def CommandFrame (s t : State) : Prop :=
  t = { s with tab := t.tab, swKind := t.swKind, swK := t.swK, log := t.log, ret := .unit }

theorem startSweep_commandFrame (k : SweepKind) (s : State) :
    CommandFrame s (setRet .unit (startSweep k s)) ∧ (setRet .unit (startSweep k s)).log = s.log := by
  unfold startSweep
  split <;> exact ⟨rfl, rfl⟩

/-- A legal command completes within its frame and logs nothing (R151). -/
theorem exec_legalCommand {s : State} {i : Instr} (hr : hostReady s = true)
    (hi : i = .cmdDenyAll ∨ (∃ iv, i = .cmdAllowAll iv) ∨ ∃ iv id, i = .cmdAllowId iv id) :
    ∃ t, exec i s = .next t ∧ CommandFrame s t ∧ t.log = s.log := by
  obtain rfl | ⟨iv, rfl⟩ | ⟨iv, id, rfl⟩ := hi
  · exact ⟨_, hostGated_ready _ _ hr, startSweep_commandFrame .deny s⟩
  · exact ⟨_, hostGated_ready _ _ hr, startSweep_commandFrame .allow s⟩
  · exact ⟨_, hostGated_ready _ _ hr, rfl, rfl⟩

/-- Settles O32: COMMAND is the row its bytes decode to, and that is a legal command's row or CMD.INVALID. -/
theorem commandPerforms : Obligations.CommandPerforms := by
  refine fun s b => ⟨exec_command b s, fun hr => ?_⟩
  rw [exec_command]
  obtain ⟨hlegal, hi⟩ | ⟨hlegal, hi⟩ := decodeRcmd_cases b
  · obtain ⟨t, hexec, hframe, hlog⟩ := exec_legalCommand hr hi
    exact ⟨t, hexec, hframe, fun _ => hlog, fun h => by simp [hlegal] at h⟩
  · rw [hi, exec_cmdInvalid b hr]
    exact ⟨_, rfl, rfl, fun h => by simp [hlegal] at h, fun _ => ⟨rfl, rfl, rfl⟩⟩

end Sys2Proof.Machine
end

section
/-!
SUPPORT. The frame queue (42_frame_queue.md): the invariant of R178 along every move of the traffic, a run of
pushes and a run of pops (R181), and the rows of the queue and its synchronisers (R173 to R177). With the proofs of
the family 42_frame_queue.md.
-/

namespace Sys2Proof.Machine

/-! ### The two copies of the pointers -/

theorem subMod_self {a m : Nat} (ha : a < m) : subMod a a m = 0 := by
  rw [subMod_eq ha ha, if_pos le_rfl, Nat.sub_self]

section

variable {s : State} (hwf : s.cfg.wf = true)

include hwf

theorem gray_lt_ptrMod {a : Nat} (ha : a < ptrMod s) : gray a < ptrMod s := by
  rw [← two_pow_pw hwf] at ha ⊢
  exact gray_lt ha

/-- A fresh copy shows the consumer the write pointer itself (R175). -/
theorem wSeen_of_fresh (hw : s.wptr < ptrMod s) (h : s.wptrGs = gray s.wptr) : wSeen s = s.wptr := by
  rw [wSeen, h, ungray_gray (two_pow_pw hwf ▸ hw)]

/-- A fresh copy shows the producer the read pointer itself (R176). -/
theorem rSeen_of_fresh (hr : s.rptr < ptrMod s) (h : s.rptrGs = gray s.rptr) : rSeen s = s.rptr := by
  rw [rSeen, h, ungray_gray (two_pow_pw hwf ▸ hr)]

end

/-! ### The invariant along the traffic -/

/-- A storage of the right shape meets the invariant while the queue does not exist. -/
theorem queueInv_of_unallocated {s : State} (hst : storageWf s = true) (ha : s.qAlloc = false) : QueueInv s :=
  ⟨hst, fun h => absurd (ha.symm.trans h) Bool.false_ne_true⟩

/-- The invariant is read off the traffic. -/
theorem queueInv_of_traffic_eq {s t : State} (h : t.traffic = s.traffic) (hq : QueueInv s) : QueueInv t := by
  obtain ⟨hcfg, hslots, hw, hr, hwg, hrg, ha, -⟩ := Traffic.mk.inj h
  simpa only [QueueInv, storageWf, occ, rSeen, wSeen, ptrMod, hcfg, hslots, hw, hr, hwg, hrg, ha] using hq

/-- An empty queue whose copies are fresh: nothing is queued and nothing unseen. -/
theorem queueInv_of_settled {s : State} (hwf : s.cfg.wf = true) (hst : storageWf s = true)
    (hr : s.rptr < ptrMod s) (heq : s.wptr = s.rptr) (hwg : s.wptrGs = gray s.wptr)
    (hrg : s.rptrGs = gray s.rptr) : QueueInv s := by
  have hw : s.wptr < ptrMod s := heq ▸ hr
  have hself : subMod s.rptr s.rptr (ptrMod s) = 0 := subMod_self hr
  have hocc : occ s = 0 := by rw [occ, heq, hself]
  refine ⟨hst, fun _ => ⟨hw, hr, hwg ▸ gray_lt_ptrMod hwf hw, hrg ▸ gray_lt_ptrMod hwf hr, ?_, ?_⟩⟩
  · rw [rSeen_of_fresh hwf hr hrg, hself, hocc]
    exact Nat.zero_le _
  · rw [wSeen_of_fresh hwf hw hwg, heq, hself]
    exact Nat.zero_le _

section

variable {s : State} (hwf : s.cfg.wf = true) (hq : QueueInv s)

include hwf hq

/-- A push with room lengthens what is unpopped by one, and the producer had counted room for it (R173). -/
theorem queueInv_tryPush (f : Frame) : QueueInv (tryPush f s).2 := by
  cases hf : fullP s with
  | true => rwa [tryPush_full f hf]
  | false =>
    refine ⟨(tryPush_storage f s).trans hq.1, fun ha => ?_⟩
    have ha : s.qAlloc = true := by simpa only [tryPush_room f hf] using ha
    obtain ⟨-, hr, hwg, hrg, hsum, hseen⟩ := hq.2 ha
    have hocc : occ (tryPush f s).2 = occ s + 1 := occ_tryPush_room hwf hq ha f hf
    have hroom : subMod s.rptr (rSeen s) (ptrMod s) + occ s ≠ s.cfg.n := by
      rw [← subMod_wptr_rSeen hwf hq ha]
      simpa [fullP] using hf
    rw [hocc]
    simp only [tryPush_room f hf]
    refine ⟨Nat.mod_lt _ (Nat.zero_lt_of_lt hr), hr, hwg, hrg, ?_, hseen.trans (Nat.le_succ _)⟩
    exact Nat.lt_of_le_of_ne hsum hroom

/-- A pop moves one frame from what is unpopped to what the producer has not seen popped, and takes it from what
the consumer sees (R174). -/
theorem queueInv_tryPop : QueueInv (tryPop s).2 := by
  cases he : emptyC s with
  | true => rwa [tryPop_empty he]
  | false =>
    refine ⟨(tryPop_storage s).trans hq.1, fun ha => ?_⟩
    have ha : s.qAlloc = true := by simpa only [tryPop_some he] using ha
    obtain ⟨hw, hr, hwg, hrg, hsum, hseen⟩ := hq.2 ha
    have hocc : occ (tryPop s).2 + 1 = occ s := occ_tryPop_some hwf hq ha he
    have hn : s.cfg.n < ptrMod s := lt_mul_of_one_lt_left (n_pos hwf) Nat.one_lt_two
    have hunseen : subMod ((s.rptr + 1) % ptrMod s) (rSeen s) (ptrMod s) =
        subMod s.rptr (rSeen s) (ptrMod s) + 1 :=
      subMod_succ_left hr (rSeen_lt hwf hq ha) (by omega)
    have hvisible : subMod (wSeen s) ((s.rptr + 1) % ptrMod s) (ptrMod s) + 1 =
        subMod (wSeen s) s.rptr (ptrMod s) := by
      refine subMod_succ_right (wSeen_lt hwf hq ha) hr (subMod_pos (wSeen_lt hwf hq ha) hr fun h => ?_)
      simp [emptyC, h] at he
    simp only [tryPop_some he] at hocc ⊢
    refine ⟨hw, Nat.mod_lt _ (Nat.zero_lt_of_lt hr), hwg, hrg, ?_, ?_⟩
    · change subMod ((s.rptr + 1) % ptrMod s) (rSeen s) (ptrMod s) + _ ≤ s.cfg.n
      omega
    · change subMod (wSeen s) ((s.rptr + 1) % ptrMod s) (ptrMod s) ≤ _
      omega

/-- After SYNC_W the consumer sees every frame that was pushed (R175). -/
theorem queueInv_syncW : QueueInv { s with wptrGs := gray s.wptr } := by
  refine ⟨hq.1, fun ha => ?_⟩
  obtain ⟨hw, hr, -, hrg, hsum, -⟩ := hq.2 ha
  have hfresh : wSeen { s with wptrGs := gray s.wptr } = s.wptr := wSeen_of_fresh hwf hw rfl
  exact ⟨hw, hr, gray_lt_ptrMod hwf hw, hrg, hsum, by rw [hfresh]; rfl⟩

/-- After SYNC_R the producer has seen every pop (R176). -/
theorem queueInv_syncR : QueueInv { s with rptrGs := gray s.rptr } := by
  refine ⟨hq.1, fun ha => ?_⟩
  obtain ⟨hw, hr, hwg, -, hsum, hseen⟩ := hq.2 ha
  have hfresh : rSeen { s with rptrGs := gray s.rptr } = s.rptr := rSeen_of_fresh hwf hr rfl
  have hnone : subMod s.rptr s.rptr (ptrMod s) = 0 := subMod_self hr
  refine ⟨hw, hr, hwg, gray_lt_ptrMod hwf hr, ?_, hseen⟩
  rw [hfresh]
  exact (Nat.add_le_add_right (hnone.trans_le (Nat.zero_le _)) _).trans hsum

theorem TrafficMove.queueInv {u : State} (h : TrafficMove s u) : QueueInv u := by
  cases h with
  | same => exact hq
  | pushed w => exact queueInv_tryPush hwf hq (frameBuild w)
  | sent => exact queueInv_tryPop hwf hq
  | syncW => exact queueInv_syncW hwf hq
  | syncR => exact queueInv_syncR hwf hq
  | cleared alloc =>
    have hzero : 0 = gray 0 := by decide
    exact queueInv_of_settled hwf hq.1 (Nat.mul_pos Nat.two_pos (n_pos hwf)) rfl hzero hzero
  | freed => exact queueInv_of_unallocated hq.1 rfl
  | reset slots hlen => exact queueInv_of_unallocated (beq_iff_eq.2 hlen) rfl

theorem TrafficStep.queueInv {t : State} (h : TrafficStep s t) : QueueInv t := by
  obtain ⟨u, hmove, ht⟩ := h
  exact queueInv_of_traffic_eq ht (hmove.queueInv hwf hq)

end

/-- Settles O44: a step makes one move of the traffic, and each of the moves keeps the invariant. -/
theorem queueInvariantKept : Obligations.QueueInvariantKept := by
  intro s t hwf hq hstep
  obtain ⟨i, s', hi, hs, hx⟩ | hs := step_cases hstep
  · obtain ⟨hcfg, hqueue, -⟩ := hs.keeps_frames
    have htraffic : TrafficStep s' t := exec_trafficStep hi s' t hx
    exact htraffic.queueInv (hcfg ▸ hwf) (hqueue.2 hq)
  · obtain ⟨-, hqueue, -⟩ := hs.keeps_frames
    exact hqueue.2 hq

/-! ### What the invariant says -/

theorem occ_le_n {s : State} (hq : QueueInv s) (ha : s.qAlloc = true) : occ s ≤ s.cfg.n := by
  obtain ⟨-, -, -, -, hsum, -⟩ := hq.2 ha
  exact (Nat.le_add_left _ _).trans hsum

/-- Settles O45: the two terms of the invariant's sum are each at most `N`, the sum is the producer's view of the
occupancy, and the two tests err on the safe side. -/
theorem queueInvariantMeaning : Obligations.QueueInvariantMeaning := by
  intro s hwf hq ha
  obtain ⟨-, -, -, -, hsum, hseen⟩ := hq.2 ha
  refine ⟨occ_le_n hq ha, (Nat.le_add_right _ _).trans hsum, ?_, hseen, occ_lt_of_not_fullP hwf hq ha,
    occ_pos_of_not_emptyC hwf hq ha⟩
  rwa [subMod_wptr_rSeen hwf hq ha]

/-- Settles O21: the consumer's view is the invariant's last bound, below the occupancy and so below `N`. -/
theorem depthIsLowerBound : Obligations.DepthIsLowerBound := by
  intro s hwf hq ha
  obtain ⟨-, -, -, hseen, -⟩ := queueInvariantMeaning s hwf hq ha
  exact ⟨hseen, hseen.trans (occ_le_n hq ha)⟩

/-! ### Runs of pushes and of pops -/

theorem contents_length (s : State) : (contents s).length = occ s := by
  simp [contents]

section

variable {s : State} (hwf : s.cfg.wf = true) (hq : QueueInv s) (ha : s.qAlloc = true)

include hwf hq ha

/-- A producer that has seen every pop finds the queue full exactly when it holds `N` frames (R173). -/
theorem fullP_of_fresh (hfresh : s.rptrGs = gray s.rptr) : fullP s = (occ s == s.cfg.n) := by
  obtain ⟨-, hr, -⟩ := hq.2 ha
  rw [fullP, subMod_wptr_rSeen hwf hq ha, rSeen_of_fresh hwf hr hfresh, subMod_self hr, Nat.zero_add]

/-- A consumer that sees every push finds the queue empty exactly when it holds no frame (R174). -/
theorem emptyC_of_fresh (hfresh : s.wptrGs = gray s.wptr) : emptyC s = (occ s == 0) := by
  obtain ⟨hw, hr, -⟩ := hq.2 ha
  rw [emptyC, wSeen_of_fresh hwf hw hfresh, Bool.eq_iff_iff, beq_iff_eq, beq_iff_eq]
  refine ⟨fun h => ?_, fun h => ?_⟩
  · rw [occ, ← h, subMod_self hr]
  · by_contra hne
    exact (subMod_pos hw hr (Ne.symm hne)).ne' h

end

/-- Where a run of pushes leads from `s`: the invariant holds, the frames stand behind those queued before, and
nothing but the slots and the write pointer has changed. -/
def Appended (fs : List Frame) (s t : State) : Prop :=
  QueueInv t ∧ contents t = contents s ++ fs ∧ t = { s with slots := t.slots, wptr := t.wptr }

theorem appended_nil {s : State} (hq : QueueInv s) : Appended [] s s :=
  ⟨hq, (List.append_nil _).symm, rfl⟩

theorem Appended.trans {fs gs : List Frame} {s t u : State} (h : Appended fs s t) (h' : Appended gs t u) :
    Appended (fs ++ gs) s u := by
  obtain ⟨-, hfs, hframe⟩ := h
  obtain ⟨hq, hgs, hframe'⟩ := h'
  refine ⟨hq, by rw [hgs, hfs, List.append_assoc], ?_⟩
  rw [hframe'.trans (by rw [hframe])]

theorem appended_tryPush {s : State} (hwf : s.cfg.wf = true) (hq : QueueInv s) (ha : s.qAlloc = true)
    (f : Frame) (hf : fullP s = false) : Appended [f] s (tryPush f s).2 :=
  ⟨queueInv_tryPush hwf hq f, contents_tryPush_room hwf hq ha f hf, by rw [tryPush_room f hf]⟩

/-- Pushes that fit all succeed and append (R181). -/
theorem pushAll_room {fs : List Frame} {s : State} (hwf : s.cfg.wf = true) (hq : QueueInv s)
    (ha : s.qAlloc = true) (hfresh : s.rptrGs = gray s.rptr) (hroom : occ s + fs.length ≤ s.cfg.n) :
    (pushAll fs s).1 = List.replicate fs.length true ∧ Appended fs s (pushAll fs s).2 := by
  induction fs generalizing s with
  | nil => exact ⟨rfl, appended_nil hq⟩
  | cons f fs ih =>
    rw [List.length_cons] at hroom
    have hf : fullP s = false := by
      rw [fullP_of_fresh hwf hq ha hfresh, beq_eq_false_iff_ne]
      omega
    have hpush : Appended [f] s (tryPush f s).2 := appended_tryPush hwf hq ha f hf
    have hocc : occ (tryPush f s).2 = occ s + 1 := occ_tryPush_room hwf hq ha f hf
    have hroom' : occ (tryPush f s).2 + fs.length ≤ (tryPush f s).2.cfg.n := by
      rw [hocc, tryPush_room f hf]
      change occ s + 1 + fs.length ≤ s.cfg.n
      omega
    obtain ⟨hanswers, hrest⟩ := ih (by rwa [tryPush_room f hf]) (queueInv_tryPush hwf hq f)
      (by rwa [tryPush_room f hf]) (by rwa [tryPush_room f hf]) hroom'
    refine ⟨?_, hpush.trans hrest⟩
    rw [pushAll, hanswers, tryPush_room f hf]
    rfl

/-- Pops that see every frame return them in order, and one pop more returns nothing (R181). -/
theorem popMany_contents {fs : List Frame} {s : State} (hwf : s.cfg.wf = true) (hq : QueueInv s)
    (ha : s.qAlloc = true) (hfresh : s.wptrGs = gray s.wptr) (hfs : contents s = fs) :
    (popMany (fs.length + 1) s).1 = fs.map some ++ [none] := by
  have hocc : occ s = fs.length := by rw [← contents_length, hfs]
  induction fs generalizing s with
  | nil =>
    have he : emptyC s = true := by
      rw [emptyC_of_fresh hwf hq ha hfresh, hocc]
      rfl
    rw [List.length_nil, popMany, tryPop_empty he]
    rfl
  | cons f fs ih =>
    have he : emptyC s = false := by
      rw [emptyC_of_fresh hwf hq ha hfresh, hocc]
      rfl
    have hcons := contents_eq_cons_tryPop hwf hq ha he
    rw [hfs] at hcons
    obtain ⟨hhead, htail⟩ := List.cons.inj hcons
    have hocc' : occ (tryPop s).2 = fs.length := by rw [← contents_length, ← htail]
    have hrest := ih (by rwa [tryPop_some he]) (queueInv_tryPop hwf hq) (by rwa [tryPop_some he])
      (by rwa [tryPop_some he]) htail.symm hocc'
    rw [List.length_cons, popMany, hrest, tryPop_some he, ← hhead]
    rfl

/-! ### The operations do not read `q_alloc` -/

/-- The same state with the queue in existence. -/
def withQueue (s : State) : State := { s with qAlloc := true }

theorem tryPush_withQueue (f : Frame) (s : State) :
    tryPush f (withQueue s) = ((tryPush f s).1, withQueue (tryPush f s).2) := by
  cases hf : fullP s with
  | true => rw [tryPush_full f hf, tryPush_full (s := withQueue s) f hf]
  | false =>
    rw [tryPush_room f hf, tryPush_room (s := withQueue s) f hf]
    rfl

theorem tryPop_withQueue (s : State) : tryPop (withQueue s) = ((tryPop s).1, withQueue (tryPop s).2) := by
  cases he : emptyC s with
  | true => rw [tryPop_empty he, tryPop_empty (s := withQueue s) he]
  | false =>
    rw [tryPop_some he, tryPop_some (s := withQueue s) he]
    rfl

theorem pushAll_withQueue (fs : List Frame) (s : State) :
    pushAll fs (withQueue s) = ((pushAll fs s).1, withQueue (pushAll fs s).2) := by
  induction fs generalizing s with
  | nil => rfl
  | cons f fs ih => rw [pushAll, pushAll, tryPush_withQueue, ih]

theorem popMany_withQueue (k : Nat) (s : State) :
    popMany k (withQueue s) = ((popMany k s).1, withQueue (popMany k s).2) := by
  induction k generalizing s with
  | zero => rfl
  | succ k ih => rw [popMany, popMany, tryPop_withQueue, ih]

/-! ### `N` pushes, then `N` pops -/

theorem pushesThenPops_of_allocated {s : State} (hwf : s.cfg.wf = true) (hq : QueueInv s)
    (ha : s.qAlloc = true) (heq : s.wptr = s.rptr) (hwg : s.wptrGs = gray s.wptr)
    (hrg : s.rptrGs = gray s.rptr) {fs : List Frame} (hlen : fs.length = s.cfg.n) (f : Frame) :
    (pushAll fs s).1 = List.replicate s.cfg.n true ∧
      (tryPush f (pushAll fs s).2).1 = false ∧
      (tryPop (pushAll fs s).2).1 = none ∧
      (popMany (s.cfg.n + 1) { (pushAll fs s).2 with wptrGs := gray (pushAll fs s).2.wptr }).1 =
        fs.map some ++ [none] := by
  obtain ⟨-, hr, -⟩ := hq.2 ha
  have hocc : occ s = 0 := by rw [occ, heq, subMod_self hr]
  obtain ⟨hanswers, hq', hcontents, hframe⟩ :=
    pushAll_room (fs := fs) hwf hq ha hrg (by rw [hocc, hlen, Nat.zero_add])
  generalize (pushAll fs s).2 = t at hq' hcontents hframe ⊢
  have hempty : contents s = [] := List.eq_nil_of_length_eq_zero ((contents_length s).trans hocc)
  rw [hempty, List.nil_append] at hcontents
  have hwf' : t.cfg.wf = true := by rwa [hframe]
  have ha' : t.qAlloc = true := by rwa [hframe]
  refine ⟨hlen ▸ hanswers, ?_, ?_, ?_⟩
  · have hfull : fullP t = true := by
      rw [fullP_of_fresh hwf' hq' ha' (by rwa [hframe]), ← contents_length, hcontents, hlen, hframe,
        beq_self_eq_true]
    rw [tryPush_full f hfull]
  · have hunseen : emptyC t = true := by
      have hseen : wSeen t = wSeen s := by rw [hframe]; rfl
      rw [emptyC, hseen, wSeen_of_fresh hwf (heq ▸ hr) hwg, heq, hframe, beq_self_eq_true]
    rw [tryPop_empty hunseen]
  · rw [← hlen]
    exact popMany_contents (s := { t with wptrGs := gray t.wptr }) hwf' (queueInv_syncW hwf' hq') ha' rfl
      hcontents

/-- Settles O47: in the queue's existence the pushes append until `N` frames stand, and the pops take them off
again; the operations behave alike where it does not exist. -/
theorem pushesThenPops : Obligations.PushesThenPops := by
  intro s fs f hwf hst hr heq hwg hrg hlen
  have hq : QueueInv (withQueue s) := queueInv_of_settled hwf hst hr heq hwg hrg
  obtain ⟨hanswers, hpush, hpop, hpops⟩ :=
    pushesThenPops_of_allocated (s := withQueue s) hwf hq rfl heq hwg hrg hlen f
  rw [pushAll_withQueue] at hanswers hpush hpop hpops
  rw [tryPush_withQueue] at hpush
  rw [tryPop_withQueue] at hpop
  have hsync := popMany_withQueue (s.cfg.n + 1) { (pushAll fs s).2 with wptrGs := gray (pushAll fs s).2.wptr }
  exact ⟨hanswers, hpush, hpop, (congrArg Prod.fst hsync).symm.trans hpops⟩

/-! ### The rows -/

/-- Settles O20: with a free host DEPTH passes its gate, and the rest is its own test. -/
theorem depthEffect : Obligations.DepthEffect := fun _ hr => hostGated_ready _ _ hr

/-- Settles O43: the two rows pass their gate while the queue exists, and each writes one copy. -/
theorem synchroniserEffect : Obligations.SynchroniserEffect := by
  intro s hr ha
  rw [exec, execSyncW, exec, execSyncR, ha]
  exact ⟨stepWhen_ready _ _ hr, stepWhen_ready _ _ hr⟩

theorem exec_tryPush {s : State} (hr : rxcReady s = true) (ha : s.qAlloc = true) (f : Frame) :
    exec (.tryPush f) s = .next (setRet (.bool (tryPush f s).1) (tryPush f s).2) := by
  rw [exec, execTryPush, ha, stepWhen_ready _ _ hr]

theorem exec_tryPop {s : State} (hr : rxcReady s = true) (ha : s.qAlloc = true) :
    exec .tryPop s = .next (setRet (.frame (tryPop s).1) (tryPop s).2) := by
  rw [exec, execTryPop, ha, stepWhen_ready _ _ hr]

/-- Settles O40: both rows pass their gate while the queue exists, and answer by the producer's full test and the
consumer's empty test. -/
theorem queueRowsEffect : Obligations.QueueRowsEffect := by
  intro s f hr ha
  rw [exec_tryPush hr ha, exec_tryPop hr ha]
  refine ⟨fun h => ?_, fun h => ?_, fun h => ?_, fun h => ?_⟩
  · rw [tryPush_full f (beq_iff_eq.2 h)]
    rfl
  · rw [tryPush_room f (beq_eq_false_iff_ne.2 h)]
    rfl
  · rw [tryPop_empty (beq_iff_eq.2 h)]
    rfl
  · rw [tryPop_some (beq_eq_false_iff_ne.2 h)]
    rfl

/-! ### The turns of the other agents -/

theorem step_of_fetch_pass {s s' : State} (h : fetch s = .pass s') : step s = .next s' := by
  simp [step, h]

/-- A turn that runs its row when the row is enabled, and passes when it is not. -/
theorem step_of_fetch_ite {s s' : State} {i : Instr} {b : Bool}
    (h : fetch s = if b then .run i s' else .pass s') :
    step s = if b then exec i s' else .next s' := by
  cases b with
  | true => exact step_of_fetch_run h
  | false => exact step_of_fetch_pass h

theorem ownTurn_ready {s : State} (hr : rxcReady s = true) (f : Fetched) : ownTurn s f = f := by
  obtain ⟨hp, hf⟩ := rxcReady_iff.1 hr
  simp [ownTurn, hp, hf]

theorem ownTurn_unpowered {s : State} (hp : s.powered = false) (f : Fetched) : ownTurn s f = .pass s := by
  simp [ownTurn, hp]

/-- The same for a turn of one of RXC's own agents, once RESET has happened and the configuration is sound. -/
theorem step_of_ownTurn_ite {s s' : State} {i : Instr} {b : Bool} (hr : rxcReady s' = true)
    (h : fetch s = ownTurn s' (if b then .run i s' else .pass s')) :
    step s = if b then exec i s' else .next s' :=
  step_of_fetch_ite (h.trans (ownTurn_ready hr _))

section

variable {s : State} {t : Turn} {l : List Turn}

theorem step_powerOn (h : s.agenda = .powerOn :: l) : step s = exec .reset { s with agenda := l } :=
  step_of_fetch_run (by simp only [fetch, h])

/-- Before RESET the turns of RXC's own agents pass (R290). -/
theorem step_own_unpowered (h : s.agenda = t :: l) (hp : s.powered = false)
    (ht : t = .syncW ∨ t = .syncR ∨ t = .hostOwn ∨ t = .drainer) : step s = .next { s with agenda := l } := by
  refine step_of_fetch_pass ?_
  obtain rfl | rfl | rfl | rfl := ht <;>
    simp only [fetch, h] <;> exact ownTurn_unpowered (s := { s with agenda := l }) hp _

/-- The MAC's turns are enabled while it is operational, and read no fault bit (R253 to R255). -/
theorem macTurn_enabled : (s.powered && !modeRm s.mac.mode) = true ↔
    s.powered = true ∧ modeRm s.mac.mode = false := by
  simp

theorem step_macRx {m : RawMsg} (h : s.agenda = .macRx m :: l) :
    step s = if s.powered = true ∧ modeRm s.mac.mode = false then exec (.macRx m) { s with agenda := l }
      else .next { s with agenda := l } := by
  simp only [← macTurn_enabled]
  exact step_of_fetch_ite (by simp only [fetch, h])

theorem step_macErr {b : ErrBit} (h : s.agenda = .macErr b :: l) :
    step s = if s.powered = true ∧ modeRm s.mac.mode = false then exec (.macErr b) { s with agenda := l }
      else .next { s with agenda := l } := by
  simp only [← macTurn_enabled]
  exact step_of_fetch_ite (by simp only [fetch, h])

theorem step_syncW (h : s.agenda = .syncW :: l) (hr : rxcReady s = true) :
    step s = if s.qAlloc then exec .syncW { s with agenda := l } else .next { s with agenda := l } :=
  step_of_ownTurn_ite (s' := { s with agenda := l }) hr (by simp only [fetch, h])

theorem step_syncR (h : s.agenda = .syncR :: l) (hr : rxcReady s = true) :
    step s = if s.qAlloc then exec .syncR { s with agenda := l } else .next { s with agenda := l } :=
  step_of_ownTurn_ite (s' := { s with agenda := l }) hr (by simp only [fetch, h])

/-- The host's own turn is its unfinished work, or passes (R147, R72). -/
theorem fetch_hostOwn (h : s.agenda = .hostOwn :: l) (hr : rxcReady s = true) :
    fetch s = (hostOwn { s with agenda := l }).getD (.pass { s with agenda := l }) := by
  simp only [fetch, h]
  exact ownTurn_ready (s := { s with agenda := l }) hr _

theorem step_hostOwn_sweep (h : s.agenda = .hostOwn :: l) (hr : rxcReady s = true) (hk : s.swKind ≠ .none) :
    step s = exec .sweepStep { s with agenda := l } :=
  step_of_fetch_run (by simp [fetch_hostOwn h hr, hostOwn, hk])

theorem step_hostOwn_idle (h : s.agenda = .hostOwn :: l) (hr : rxcReady s = true) (hk : s.swKind = .none)
    (ho : s.hostHeld = none) : step s = .next { s with agenda := l } :=
  step_of_fetch_pass (by simp [fetch_hostOwn h hr, hostOwn, hk, ho])

/-- A held operation goes on once the critical section is free (R72). -/
theorem hostOwn_held {op : HeldOp} (hk : s.swKind = .none) (ho : s.hostHeld = some op) :
    hostOwn s = if csHeld s then none else some (.run (heldInstr op) { s with hostHeld := none }) := by
  simp [hostOwn, hk, ho]

theorem step_hostOwn_held {op : HeldOp} (h : s.agenda = .hostOwn :: l) (hr : rxcReady s = true)
    (hk : s.swKind = .none) (ho : s.hostHeld = some op) :
    step s = if csHeld s then .next { s with agenda := l }
      else exec (heldInstr op) { s with agenda := l, hostHeld := none } := by
  have hown : hostOwn { s with agenda := l } =
      if csHeld s then none else some (.run (heldInstr op) { s with agenda := l, hostHeld := none }) :=
    hostOwn_held hk ho
  have hfetch := fetch_hostOwn h hr
  rw [hown] at hfetch
  cases hc : csHeld s with
  | true => exact step_of_fetch_pass (hfetch.trans (by rw [hc]; rfl))
  | false => exact step_of_fetch_run (hfetch.trans (by rw [hc]; rfl))

end

/-- Settles O9: one equation of `step` per turn. -/
theorem stepRunsOtherAgents : Obligations.StepRunsOtherAgents := by
  refine fun s t l h => ⟨?_, step_own_unpowered h, ?_, ?_, fun hr => ⟨?_, ?_, ?_⟩⟩
  · rintro rfl
    exact step_powerOn h
  · rintro m rfl
    exact step_macRx h
  · rintro b rfl
    exact step_macErr h
  · rintro rfl
    exact step_syncW h hr
  · rintro rfl
    exact step_syncR h hr
  · rintro rfl
    exact ⟨step_hostOwn_sweep h hr, step_hostOwn_idle h hr, fun _ => step_hostOwn_held h hr⟩

end Sys2Proof.Machine
end

section
/-!
SUPPORT. The controller (43_controller.md): what each host operation of the lifecycle does (R201 to R204, R208), RECV
and SNAPSHOT (R205, R206), and the lifecycle's invariant as three regimes, each with the steps that enter, keep and
leave it. With the proofs of the family 43_controller.md.
-/

namespace Sys2Proof.Machine

/-! ### Refusals -/

/-- Settles O12: a free host passes the gate, and each operation then tests `life` or `q_alloc`; a reserved code
meets no gate. -/
theorem refusedOperations : Obligations.RefusedOperations := by
  refine fun s => ⟨fun hr => ⟨fun hl => ?_, fun hi hst => ?_, fun hl => ?_, fun hl => ?_, fun ha => ⟨?_, ?_⟩⟩,
    fun _ => rfl⟩
  · simp only [exec, execInstall, hostGated_ready _ _ hr, if_neg hl]
  · simp only [exec, execStart, hostGated_ready _ _ hr, if_neg (not_or.2 ⟨hi, hst⟩)]
  · simp only [exec, execStop, hostGated_ready _ _ hr, if_neg hl]
  · simp only [exec, execUninstall, hostGated_ready _ _ hr, if_pos hl]
  · simp only [exec, execRecv, hostGated_ready _ _ hr, ha, Bool.false_eq_true, if_false]
  · simp only [exec, execDepth, hostGated_ready _ _ hr, ha, Bool.false_eq_true, if_false]

/-! ### The mode register -/

/-- A mode byte written as a register word is the byte (10_state.md section 2). -/
theorem regWrite_mode (v : Byte) (s : State) : regWrite .mode (v.setWidth 32) s = writeMode v s := by
  simp [regWrite]

/-- The mode byte with `RM` clear and `AFM` as it was (R202). -/
theorem modeByte_false_modeAfm (m : Byte) : modeByte false (modeAfm m) = m &&& 0x08 := by
  revert m
  decide

/-- A draw leaves the parameters and the MAC as they are (R5). -/
theorem drawAck_keeps (s : State) : (drawAck s).2.cfg = s.cfg ∧ (drawAck s).2.mac = s.mac := by
  obtain ⟨_, _, -, h⟩ | ⟨-, h⟩ := drawAck_cases s <;> rw [h] <;> exact ⟨rfl, rfl⟩

/-- The draw does not see the queue (R170, R256). -/
theorem drawAck_qAllocate (s : State) : drawAck (qAllocate s) = ((drawAck s).1, qAllocate (drawAck s).2) := by
  unfold drawAck
  simp only [qAllocate_resetAcks]
  split <;> rfl

/-- A request for configuration mode that the MAC honours (R256). -/
theorem writeMode_entered {v : Byte} {s : State} (hv : modeRm v = true) (hack : (drawAck s).1 = true) :
    writeMode v s = { (drawAck s).2 with mac := { s.mac with
      mode := v, rxq := if s.cfg.macResetFlush then [] else s.mac.rxq } } := by
  obtain ⟨hcfg, hmac⟩ := drawAck_keeps s
  simp only [writeMode, hv, hack, if_true, hcfg, hmac]

/-- A request for configuration mode that the MAC declines (R256). -/
theorem writeMode_declined {v : Byte} {s : State} (hv : modeRm v = true) (hack : (drawAck s).1 = false) :
    writeMode v s = { (drawAck s).2 with
      mac := { s.mac with mode := Config.freeMode (drawAck s).2.draws &&& 0xFE }
      draws := (drawAck s).2.draws + 1 } := by
  obtain ⟨-, hmac⟩ := drawAck_keeps s
  simp only [writeMode, hv, hack, if_true, Bool.false_eq_true, if_false, hmac]

/-! ### The lifecycle operations -/

/-- In configuration mode every write of INSTALL takes effect (R37, R38, R201). -/
theorem installConfigure_eq {s : State} (h : modeRm s.mac.mode = true) :
    installConfigure s = { s with
      mac := { s.mac with
        ier := enInstall, isr := 0
        btr0 := btr0Byte s.cfg.timing, btr1 := btr1Byte s.cfg.timing
        code := s.cfg.filter.code, mask := s.cfg.filter.mask }
      rxpinFloating := true, running := false, life := .installed, ret := .bool true } := by
  simp [installConfigure, writeTiming_eq, writeCode_eq, writeMask_eq, h, regWrite, regRead]

/-- Outside the critical section nothing is held (R72). -/
theorem heldOr_free {s : State} (op : HeldOp) (r : Result) (hc : csHeld s = false) : heldOr op s r = r := by
  simp [heldOr, hc]

/-- Outside the critical section INSTALL runs its body (R72, R201). -/
theorem exec_install {s : State} (hr : hostReady s = true) (hl : s.life = .uninstalled)
    (hc : csHeld s = false) : exec .install s = .next (installBody s) := by
  simp only [exec, execInstall, hostGated_ready _ _ hr, if_pos hl, heldOr_free _ _ hc]

/-- Settles O13: the request is honoured, so `RM` reads 1 and INSTALL goes on to configure. -/
theorem installConfigures : Obligations.InstallConfigures := by
  intro s hr hl hc hack
  obtain ⟨hcfg, -⟩ := drawAck_keeps s
  have hack' : (drawAck (qAllocate s)).1 = true := by rw [drawAck_qAllocate, hack]
  rw [exec_install hr hl hc, installBody_eq]
  simp only [regWrite_mode, writeMode_entered (modeRm_modeByte _ _) hack', modeRm_modeByte, if_true,
    installConfigure_eq, drawAck_qAllocate, qAllocate_cfg, hcfg]
  rfl

/-- Settles O14: the request is declined, so `RM` reads 0 and INSTALL gives the queue back. -/
theorem installFails : Obligations.InstallFails := by
  intro s hr hl hc hack
  have hack' : (drawAck (qAllocate s)).1 = false := by rw [drawAck_qAllocate, hack]
  refine ⟨_, modeRm_declined (Config.freeMode (drawAck s).2.draws), ?_⟩
  rw [exec_install hr hl hc, installBody_eq]
  simp only [regWrite_mode, writeMode_declined (modeRm_modeByte _ _) hack', modeRm_declined,
    Bool.false_eq_true, if_false, drawAck_qAllocate]
  rfl

/-- Settles O15: outside the critical section START runs its body, and leaving configuration mode always takes
effect. -/
theorem startEffect : Obligations.StartEffect := by
  intro s hr hl hc
  have hbody : exec .start s = .next (startBody s) := by
    simp only [exec, execStart, hostGated_ready _ _ hr, if_pos hl, heldOr_free _ _ hc]
  rw [hbody]
  simp only [startBody, regWrite_mode, writeMode_operational]
  rw [modeByte_false_modeAfm]
  rfl

/-- Settles O16: STOP has no hold, so behind the gate stands its own test. -/
theorem stopEffect : Obligations.StopEffect := fun _ hr => hostGated_ready _ _ hr

/-- Settles O17: outside the critical section UNINSTALL runs its body. -/
theorem uninstallEffect : Obligations.UninstallEffect := by
  intro s hr hl hc
  simp only [exec, execUninstall, hostGated_ready _ _ hr, if_neg hl, heldOr_free _ _ hc]
  rfl

/-! ### Polling and diagnostics -/

/-- Settles O19: RECV is refused without a queue, and its body follows the consumer's empty test. -/
theorem recvEffect : Obligations.RecvEffect := by
  intro s hr
  obtain ⟨-, -, -, -, hqueue⟩ := (refusedOperations s).1 hr
  have hbody (ha : s.qAlloc = true) : exec .recv s = .next (recvBody s) := by
    simp only [exec, execRecv, hostGated_ready _ _ hr, if_pos ha]
  refine ⟨fun ha => (hqueue ha).1, fun ha h => ?_, fun ha h => ?_⟩
  · rw [hbody ha, recvBody, tryPop_empty (beq_iff_eq.2 h)]
    rfl
  · rw [hbody ha, recvBody, tryPop_some (beq_eq_false_iff_ne.2 h)]
    rfl

/-- Settles O23: the gate reads no `life`, and each selection names its own counter. -/
theorem snapshotEffect : Obligations.SnapshotEffect := fun _ hr =>
  ⟨hostGated_ready _ _ hr, hostGated_ready _ _ hr, hostGated_ready _ _ hr, hostGated_ready _ _ hr⟩

/-! ### The three regimes of the lifecycle -/

/-- No handler is installed: there is no queue and the drainer is idle (R22, R28). -/
structure Absent (s : State) : Prop where
  life : s.life = .uninstalled
  running : s.running = false
  queue : s.qAlloc = false
  idle : csHeld s = false

/-- The MAC is in configuration mode and no interrupt can be requested (R201). -/
structure Configured (s : State) : Prop where
  life : s.life = .installed
  running : s.running = false
  queue : s.qAlloc = true
  idle : csHeld s = false
  masks : s.mac.ier = enInstall
  status : s.mac.isr = 0
  mode : modeRm s.mac.mode = true

/-- The MAC is operational, and the drainer may be in any phase (R202, R203). -/
structure Operating (s : State) : Prop where
  life : s.life = .running ∨ s.life = .stopped
  running : s.running = true
  queue : s.qAlloc = true
  masks : s.mac.ier = enInstall
  status : s.mac.isr &&& 0x1A = 0
  mode : modeRm s.mac.mode = false

theorem Absent.lifeInv {s : State} (h : Absent s) : LifeInv s := by
  obtain ⟨hl, hrun, hq, hc⟩ := h
  simp [LifeInv, handlerInstalled, hl, hrun, hq, hc]

theorem Configured.lifeInv {s : State} (h : Configured s) : LifeInv s := by
  obtain ⟨hl, hrun, hq, hc, hm, hst, hmode⟩ := h
  simp [LifeInv, handlerInstalled, hl, hrun, hq, hc, hm, hst, hmode]

theorem Operating.lifeInv {s : State} (h : Operating s) : LifeInv s := by
  obtain ⟨hl, hrun, hq, hm, hst, hmode⟩ := h
  have hno : s.life ≠ .uninstalled := by obtain hl | hl := hl <;> simp [hl]
  have hnot : s.life ≠ .installed := by obtain hl | hl := hl <;> simp [hl]
  exact ⟨by simp [handlerInstalled, hq, hno], iff_of_true hrun hl, fun _ => ⟨hm, hst⟩,
    fun h => absurd h hnot, fun _ => hmode, fun _ => hl⟩

/-- The invariant says no more than that one of the three regimes is in force. -/
theorem LifeInv.regime {s : State} (h : LifeInv s) : Absent s ∨ Configured s ∨ Operating s := by
  obtain ⟨hq, hrun, hm, hinst, hop, hcs⟩ := h
  rw [handlerInstalled] at hq
  cases hl : s.life with
  | uninstalled => exact .inl ⟨hl, by simpa [hl] using hrun, hq.trans (by rw [hl]; rfl), by simpa [hl] using hcs⟩
  | installed =>
    obtain ⟨hmode, hst⟩ := hinst hl
    exact .inr (.inl ⟨hl, by simpa [hl] using hrun, hq.trans (by rw [hl]; rfl), by simpa [hl] using hcs,
      (hm (by simp [hl])).1, hst, hmode⟩)
  | running | stopped =>
    obtain ⟨hier, hst⟩ := hm (by simp [hl])
    exact .inr (.inr ⟨by simp [hl], by simpa [hl] using hrun, hq.trans (by rw [hl]; rfl), hier, hst,
      hop (by simp [hl])⟩)

theorem LifeInv.absent {s : State} (h : LifeInv s) (hl : s.life = .uninstalled) : Absent s := by
  obtain h | h | h := h.regime
  · exact h
  · exact absurd h.life (by simp [hl])
  · exact absurd h.life (by simp [hl])

theorem LifeInv.operating {s : State} (h : LifeInv s) (hl : s.life = .running ∨ s.life = .stopped) :
    Operating s := by
  obtain h | h | h := h.regime
  · simp [h.life] at hl
  · simp [h.life] at hl
  · exact h

/-- Once a handler is installed the queue exists and the sources of `EN_INSTALL` are enabled (R28, R36). -/
theorem LifeInv.installed {s : State} (h : LifeInv s) (hl : s.life ≠ .uninstalled) :
    s.qAlloc = true ∧ s.mac.ier = enInstall := by
  obtain h | h | h := h.regime
  · exact absurd h.life hl
  · exact ⟨h.queue, h.masks⟩
  · exact ⟨h.queue, h.masks⟩

/-! ### Operations that leave the lifecycle as it is -/

/-- The parts of the state that the invariant reads (R20, R21, R28, R29, R33, R35, R36). -/
structure Lifecycle where
  life : Life
  running : Bool
  qAlloc : Bool
  csHeld : Bool
  mode : Byte
  ier : Byte
  isr : Byte

def State.lifecycle (s : State) : Lifecycle :=
  ⟨s.life, s.running, s.qAlloc, csHeld s, s.mac.mode, s.mac.ier, s.mac.isr⟩

theorem lifeInv_of_lifecycle_eq {s t : State} (h : t.lifecycle = s.lifecycle) (hs : LifeInv s) : LifeInv t := by
  obtain ⟨hl, hrun, hq, hc, hmode, hm, hst⟩ := Lifecycle.mk.inj h
  simpa only [LifeInv, handlerInstalled, hl, hrun, hq, hc, hmode, hm, hst] using hs

theorem startSweep_lifecycle (k : SweepKind) (s : State) : (startSweep k s).lifecycle = s.lifecycle := by
  unfold startSweep
  split <;> rfl

theorem zeroCounter_lifecycle (sel : CounterSel) (s : State) :
    (zeroCounter sel s).lifecycle = s.lifecycle := by
  cases sel <;> rfl

theorem tryPush_lifecycle (f : Frame) (s : State) : (tryPush f s).2.lifecycle = s.lifecycle := by
  unfold tryPush
  split <;> rfl

theorem tryPop_lifecycle (s : State) : (tryPop s).2.lifecycle = s.lifecycle := by
  unfold tryPop
  split <;> rfl

theorem recvBody_lifecycle (s : State) : (recvBody s).lifecycle = s.lifecycle := by
  unfold recvBody
  split <;> exact tryPop_lifecycle s

/-- A release reaches the MAC's FIFO and no register (R257). -/
theorem finishMessage_lifecycle (s : State) : (finishMessage s).lifecycle = s.lifecycle := by
  have hrelease : (finishMessage s).lifecycle = (release s).lifecycle :=
    by simp only [finishMessage, regWrite_cmd_rrb]; rfl
  obtain ⟨_, _, -, h⟩ | ⟨-, h⟩ := release_cases s <;> rw [hrelease, h] <;> rfl

theorem admitMessage_lifecycle (w : RawMsg) (s : State) : (admitMessage w s).lifecycle = s.lifecycle := by
  have hpush (t : State) : (pushAdmitted w t).lifecycle = t.lifecycle := by
    simp only [pushAdmitted]
    split <;> exact tryPush_lifecycle _ t
  unfold admitMessage
  split
  · exact hpush _
  · rfl

/-! ### The drainer's and the MAC's steps within a regime -/

theorem leads_stepWhen_of {P : State → Prop} {m : String} {b : Bool} {s s' : State} (h : b = true → P s') :
    Leads P (stepWhen m b s s') := fun t ht => by
  obtain ⟨-, -, hb, rfl⟩ := stepWhen_next ht
  exact h hb

theorem leads_macWhen_of {P : State → Prop} {m : String} {b : Bool} {s s' : State} (h : b = true → P s') :
    Leads P (macWhen m b s s') := fun t ht => by
  obtain ⟨-, hb, rfl⟩ := macWhen_next ht
  exact h hb

/-- An enabled source is none of the masked ones (R36). -/
theorem enInstall_masks {b : Nat} (h : enInstall.getLsbD b = true) : (1#8 <<< b) &&& 0x1A = 0 := by
  have hb : b < 8 := BitVec.lt_of_getLsbD h
  revert h
  interval_cases b <;> decide

section

variable {s : State} (hs : LifeInv s)

include hs

/-- The drainer is inside an invocation in `Running` and `Stopped` only (R73). -/
theorem operating_of_csHeld (hc : csHeld s = true) : Operating s := by
  obtain h | h | h := hs.regime
  · simp [h.idle] at hc
  · simp [h.idle] at hc
  · exact h

/-- In `Installed` no interrupt is requested, so an invocation begins in `Running` or `Stopped` (R243). -/
theorem operating_of_entryReady (he : entryReady s = true) : Operating s := by
  obtain h | h | h := hs.regime
  · simp [entryReady, handlerInstalled, h.life] at he
  · simp [entryReady, irq, h.status] at he
  · exact h

/-- Taking the interrupt clears the status, whatever phase follows (R243). -/
theorem lifeInv_takeInterrupt (he : entryReady s = true) (ph : DrPhase) :
    LifeInv { (takeInterrupt s).2 with drPhase := ph } := by
  obtain ⟨hl, hrun, hq, hm, -, hmode⟩ := operating_of_entryReady hs he
  exact Operating.lifeInv ⟨hl, hrun, hq, hm, BitVec.zero_and, hmode⟩

/-- An invocation may go from phase to phase (R243, R246). -/
theorem lifeInv_phase (hc : csHeld s = true) (ph : DrPhase) : LifeInv { s with drPhase := ph } := by
  obtain ⟨hl, hrun, hq, hm, hst, hmode⟩ := operating_of_csHeld hs hc
  exact Operating.lifeInv ⟨hl, hrun, hq, hm, hst, hmode⟩

/-- While the MAC is operational a status bit appears only where it is enabled (R258). -/
theorem lifeInv_setStatus (hmode : modeRm s.mac.mode = false) (b : Nat) : LifeInv (setStatus b s) := by
  obtain ⟨hbit, h⟩ | ⟨-, h⟩ := setStatus_cases b s <;> rw [h]
  · obtain hr | hr | hr := hs.regime
    · exact Absent.lifeInv ⟨hr.life, hr.running, hr.queue, hr.idle⟩
    · simp [hr.mode] at hmode
    · have hst : (s.mac.isr ||| (1#8 <<< b)) &&& 0x1A = 0 := by
        rw [BitVec.and_or_distrib_right, hr.status, enInstall_masks (hr.masks ▸ hbit)]
        rfl
      exact Operating.lifeInv ⟨hr.life, hr.running, hr.queue, hr.masks, hst, hr.mode⟩
  · exact hs

theorem lifeInv_receive (hmode : modeRm s.mac.mode = false) (m : RawMsg) : LifeInv (receive m s) := by
  unfold receive
  split
  · exact lifeInv_setStatus (s := { s with mac := { s.mac with rxq := s.mac.rxq ++ [m] } }) hs hmode 0
  · exact hs

end

/-! ### The lifecycle operations between the regimes -/

theorem leads_hostGated_of {P : State → Prop} {m : String} {s : State} {r : Result}
    (h : hostReady s = true → Leads P (hostGated m s r)) : Leads P (hostGated m s r) := fun t ht => by
  obtain ⟨hp, hf, hb, -⟩ := hostGated_next ht
  exact h (hostReady_iff.2 ⟨hp, hf, hb⟩) t ht

section

variable {s : State} (hs : LifeInv s)

include hs

/-- INSTALL leads from no handler to configuration mode, or back where it was (R201). -/
theorem leads_install : Leads LifeInv (exec .install s) := by
  refine leads_hostGated_of fun hr => ?_
  change Leads LifeInv (exec .install s)
  by_cases hl : s.life = .uninstalled
  · have habs : Absent s := hs.absent hl
    obtain ⟨_, _, _, hdraw⟩ := drawAck_macOnly s
    cases hack : (drawAck s).1 with
    | true =>
      rw [installConfigures s hr hl habs.idle hack, hdraw]
      exact leads_next (Configured.lifeInv ⟨rfl, rfl, rfl, habs.idle, rfl, rfl, modeRm_modeByte true _⟩)
    | false =>
      obtain ⟨_, -, h⟩ := installFails s hr hl habs.idle hack
      rw [h, hdraw]
      exact leads_next (Absent.lifeInv ⟨hl, habs.running, rfl, habs.idle⟩)
  · obtain ⟨hrefused, -⟩ := (refusedOperations s).1 hr
    rw [hrefused hl]
    exact leads_refused _

/-- START releases the MAC, with the sources INSTALL enabled (R202). -/
theorem leads_start : Leads LifeInv (exec .start s) := by
  refine leads_hostGated_of fun hr => ?_
  change Leads LifeInv (exec .start s)
  by_cases hl : s.life = .installed ∨ s.life = .stopped
  · obtain ⟨hq, hm⟩ := hs.installed (by obtain hl | hl := hl <;> simp [hl])
    have hmode : modeRm (s.mac.mode &&& 0x08) = false := by simp [modeRm]
    cases hc : csHeld s with
    | true =>
      obtain ⟨-, hheld, -⟩ := (criticalSectionHolds s).1 hc hr
      rw [hheld hl]
      exact leads_next hs
    | false =>
      rw [startEffect s hr hl hc]
      exact leads_next (Operating.lifeInv ⟨.inl rfl, rfl, hq, hm, BitVec.zero_and, hmode⟩)
  · obtain ⟨-, hrefused, -⟩ := (refusedOperations s).1 hr
    rw [not_or] at hl
    rw [hrefused hl.1 hl.2]
    exact leads_refused _

/-- STOP keeps the MAC operational, and an invocation goes on (R203). -/
theorem leads_stop : Leads LifeInv (exec .stop s) := by
  refine leads_hostGated_of fun hr => ?_
  change Leads LifeInv (exec .stop s)
  rw [stopEffect s hr]
  refine leads_ite (fun hl => leads_next ?_) fun _ => leads_refused _
  obtain ⟨-, hrun, hq, hm, hst, hmode⟩ := hs.operating (.inl hl)
  exact Operating.lifeInv ⟨.inr rfl, hrun, hq, hm, hst, hmode⟩

/-- UNINSTALL leads from any of the other regimes to no handler (R204). -/
theorem leads_uninstall : Leads LifeInv (exec .uninstall s) := by
  refine leads_hostGated_of fun hr => ?_
  change Leads LifeInv (exec .uninstall s)
  by_cases hl : s.life = .uninstalled
  · obtain ⟨-, -, -, hrefused, -⟩ := (refusedOperations s).1 hr
    rw [hrefused hl]
    exact leads_refused _
  · cases hc : csHeld s with
    | true =>
      obtain ⟨-, -, hheld⟩ := (criticalSectionHolds s).1 hc hr
      rw [hheld hl]
      exact leads_next hs
    | false =>
      rw [uninstallEffect s hr hl hc]
      exact leads_next (Absent.lifeInv ⟨rfl, rfl, rfl, hc⟩)

end

/-! ### Rows and steps -/

/-- RESET leaves no handler, whatever the MAC's registers hold (R291). -/
theorem powerOn_absent (s : State) : Absent (powerOn s) := by
  simp only [powerOn, checkConfig]
  split <;> exact ⟨rfl, rfl, rfl, rfl⟩

section

variable {s : State} (hs : LifeInv s)

include hs

theorem leads_lifecycle {t : State} (h : t.lifecycle = s.lifecycle) : Leads LifeInv (.next t) :=
  leads_next (lifeInv_of_lifecycle_eq h hs)

theorem leads_sweepStart_lifecycle (m : String) (k : SweepKind) :
    Leads LifeInv (hostGated m s (.next (setRet .unit (startSweep k s)))) :=
  leads_hostGated (leads_lifecycle hs (startSweep_lifecycle k s))

/-- Every row keeps the lifecycle's invariant. -/
theorem exec_lifeInv (i : Instr) : Leads LifeInv (exec i s) := by
  cases i with
  | install => exact leads_install hs
  | start => exact leads_start hs
  | stop => exact leads_stop hs
  | uninstall => exact leads_uninstall hs
  | recv =>
    exact leads_hostGated (leads_ite (fun _ => leads_lifecycle hs (recvBody_lifecycle s)) fun _ =>
      leads_refused _)
  | depth => exact leads_hostGated (leads_ite (fun _ => leads_lifecycle hs rfl) fun _ => leads_refused _)
  | canDecode _ | allowId _ | cmdAllowId _ _ | cmdInvalid _ =>
    exact leads_hostGated (leads_lifecycle hs rfl)
  | snapshot sel => exact leads_hostGated (leads_lifecycle hs (zeroCounter_lifecycle sel s))
  | denyAll | allowAll | cmdDenyAll | cmdAllowAll _ => exact leads_sweepStart_lifecycle hs _ _
  | command b =>
    simp only [exec, execCommand]
    split
    · exact leads_sweepStart_lifecycle hs _ _
    · exact leads_sweepStart_lifecycle hs _ _
    · exact leads_hostGated (leads_lifecycle hs rfl)
    · exact leads_hostGated (leads_lifecycle hs rfl)
  | hostopReserved _ => exact leads_refused _
  | drEntryRx | drEntryErr | drEntryNone =>
    exact leads_stepWhen_of fun h => lifeInv_takeInterrupt hs (Bool.and_eq_true_iff.1 h).1 _
  | drCount | drExit =>
    refine leads_stepWhen_of fun h => lifeInv_phase hs ?_ _
    simp_all [csHeld]
  | drMsgRtr | drMsgExt =>
    exact leads_stepWhen (lifeInv_of_lifecycle_eq (finishMessage_lifecycle s) hs)
  | drMsgStd =>
    exact leads_stepWhen (lifeInv_of_lifecycle_eq
      ((finishMessage_lifecycle _).trans (admitMessage_lifecycle _ s)) hs)
  | sweepStep | shouldDecode _ | captureClass _ | syncW | syncR => exact leads_stepWhen hs
  | tryPush f => exact leads_stepWhen (lifeInv_of_lifecycle_eq (tryPush_lifecycle f s) hs)
  | tryPop => exact leads_stepWhen (lifeInv_of_lifecycle_eq (tryPop_lifecycle s) hs)
  | macRx m => exact leads_macWhen_of fun h => lifeInv_receive hs (Bool.not_eq_true' _ ▸ h) m
  | macErr b => exact leads_macWhen_of fun h => lifeInv_setStatus hs (Bool.not_eq_true' _ ▸ h) b.bit
  | reset => exact leads_ite (fun _ => leads_refused _) fun _ => leads_next (powerOn_absent s).lifeInv

end

/-- Where a step runs from, the lifecycle is as it was. -/
theorem RunsFrom.lifecycle_eq {s s' : State} (h : RunsFrom s s') : s'.lifecycle = s.lifecycle := by
  obtain ⟨h, -⟩ := h
  rw [h]
  rfl

/-- Settles O55: the four lifecycle operations lead from regime to regime, the drainer moves only while the MAC is
operational, a status bit appears only where it is enabled, and no other row reaches the lifecycle. -/
theorem lifecycleInvariantKept : Obligations.LifecycleInvariantKept := by
  intro s t hs hstep
  obtain ⟨i, s', -, hfrom, hx⟩ | hfrom := step_cases hstep
  · exact exec_lifeInv (lifeInv_of_lifecycle_eq hfrom.lifecycle_eq hs) i t hx
  · exact lifeInv_of_lifecycle_eq hfrom.lifecycle_eq hs

end Sys2Proof.Machine
end

section
/-!
SUPPORT. The drainer, the contexts and the MAC's environment steps (60_exceptions.md): what each drainer step does
(R243 to R246, R263) and how an invocation ends (R247); the MAC's message and error steps (R254, R255, R258); what a
step can do to the sequencing of drainer and host (R46, R49, R245), said once for every row; and what each context
may write (R240). With the proofs of the family 60_exceptions.md.
-/

namespace Sys2Proof.Machine

/-! ### The branches of DR.ENTRY -/

/-- DR.ENTRY is enabled while a handler is installed, the drainer is idle and a status bit is set (R243). -/
theorem entryReady_iff {s : State} :
    entryReady s = true ↔ s.life ≠ .uninstalled ∧ s.drPhase = .idle ∧ s.mac.isr ≠ 0 := by
  simp [entryReady, handlerInstalled, irq, and_assoc]

/-- Settles O34: the status selects one branch, and the interrupt taken clears it in each of them. -/
theorem entryEffect : Obligations.EntryEffect := by
  intro s hr hl hph hisr
  have hentry : entryReady s = true := entryReady_iff.2 ⟨hl, hph, hisr⟩
  obtain ⟨hrx, herr, hnone, -⟩ := statusSelectsBranch s.mac.isr
  refine ⟨fun h => ?_, fun h0 he => ?_, fun h => ?_⟩
  · simp only [exec, execDrEntryRx, hentry, hrx h, decide_true, Bool.and_true, stepWhen_ready _ _ hr, entryRx,
      takeInterrupt_eq]
  · simp only [exec, execDrEntryErr, hentry, herr ⟨h0, he⟩, decide_true, Bool.and_true, stepWhen_ready _ _ hr,
      raise, takeInterrupt_eq]
  · simp only [exec, execDrEntryNone, hentry, hnone h, decide_true, Bool.and_true, stepWhen_ready _ _ hr,
      takeInterrupt_eq]

/-! ### DR.COUNT and DR.EXIT -/

/-- The message count as the register shows it (R40). -/
theorem regRead_rmc (s : State) :
    (regRead .rmc s).1.setWidth 8 = BitVec.ofNat 8 s.mac.rxq.length :=
  BitVec.setWidth_setWidth_of_le _ (by decide)

/-- Settles O35: in `Count` the row is enabled, and it reads the message count once. -/
theorem countEffect : Obligations.CountEffect := by
  intro s hr hph
  have hen : (s.drPhase == DrPhase.count) = true := beq_iff_eq.2 hph
  rw [exec, execDrCount, hen, stepWhen_ready _ _ hr, regRead_rmc]

/-- Settles O38: with nothing left the row is enabled, and it is the return from the interrupt. -/
theorem exitEffect : Obligations.ExitEffect := by
  intro s hr hph hrem
  have hen : (s.drPhase == DrPhase.drain && s.drRemaining == 0) = true := by
    rw [hph, hrem]
    rfl
  rw [exec, execDrExit, hen]
  exact stepWhen_ready _ _ hr

/-! ### DR.MSG: the message in the window -/

section

variable {s : State} (hr : rxcReady s = true) (hmsg : msgReady s = true)

include hr hmsg

theorem exec_drMsgRtr (hc : headClass s = .remote) : exec .drMsgRtr s = .next (finishMessage s) := by
  simp only [exec, execDrMsgRtr, hmsg, hc, decide_true, Bool.and_true, stepWhen_ready _ _ hr]

theorem exec_drMsgExt (hc : headClass s = .extended) : exec .drMsgExt s = .next (finishMessage s) := by
  simp only [exec, execDrMsgExt, hmsg, hc, decide_true, Bool.and_true, stepWhen_ready _ _ hr]

/-- A standard message is handled while the queue exists, or if it is not admitted (R245). -/
theorem exec_drMsgStd (hc : headClass s = .standardData)
    (ha : s.qAlloc = true ∨ (admission s.tab (msgId (window s))).1 = false) :
    exec .drMsgStd s = .next (finishMessage (admitMessage (window s) s)) := by
  have hen : (s.qAlloc || !(shouldDecode (msgId (window s)) s).1) = true := by
    obtain ha | ha := ha <;> simp [shouldDecode, ha]
  simp only [exec, execDrMsgStd, hmsg, hc, hen, decide_true, Bool.and_true, stepWhen_ready _ _ hr]

end

section

variable {s : State} {w : RawMsg}

theorem admitMessage_rejected (h : (admission s.tab (msgId w)).1 = false) :
    admitMessage w s = { s with tab := (admission s.tab (msgId w)).2 } := by
  simp [admitMessage, shouldDecode, h]

/-- An admitted message with room in the queue is pushed, flagged and counted (R245). -/
theorem admitMessage_pushed (h : (admission s.tab (msgId w)).1 = true) (hf : fullP s = false) :
    admitMessage w s = { s with
      tab := (admission s.tab (msgId w)).2
      slots := s.slots.set (s.wptr % s.cfg.n) (frameBuild w)
      wptr := (s.wptr + 1) % ptrMod s
      drPushed := true, cntAdmitted := s.cntAdmitted + 1 } := by
  have hroom := tryPush_room (s := { s with tab := (admission s.tab (msgId w)).2 }) (frameBuild w) hf
  simp only [admitMessage, shouldDecode, h, if_true, pushAdmitted, hroom]
  rfl

/-- An admitted message that finds the queue full is counted and dropped (R248 X4). -/
theorem admitMessage_dropped (h : (admission s.tab (msgId w)).1 = true) (hf : fullP s = true) :
    admitMessage w s = { s with
      tab := (admission s.tab (msgId w)).2, cntAdmitted := s.cntAdmitted + 1 } := by
  have hfull := tryPush_full (s := { s with tab := (admission s.tab (msgId w)).2 }) (frameBuild w) hf
  simp only [admitMessage, shouldDecode, h, if_true, pushAdmitted, hfull, raise, Bool.false_eq_true, if_false]

end

/-- All that the standard branch may change before the release: one table count, and what a push writes. -/
theorem admitMessage_frame (w : RawMsg) (s : State) :
    ∃ slots wptr pushed n, admitMessage w s = { s with
      tab := (admission s.tab (msgId w)).2
      slots := slots, wptr := wptr, drPushed := pushed, cntAdmitted := n } := by
  cases h : (admission s.tab (msgId w)).1 with
  | false => exact ⟨_, _, _, _, admitMessage_rejected h⟩
  | true =>
    cases hf : fullP s with
    | false => exact ⟨_, _, _, _, admitMessage_pushed h hf⟩
    | true => exact ⟨_, _, _, _, admitMessage_dropped h hf⟩

/-- Settles O37: the admission test and the push leave the FIFO to the release, which takes the message off it. -/
theorem standardMessageEffect : Obligations.StandardMessageEffect := by
  intro s m l hr hph hrem hq hrtr hff
  have hmsg : msgReady s = true := msgReady_of_drain hph hrem
  have hclass : headClass s = .standardData := by
    rw [headClass_cons hq, captureClass, ctlRtr, hrtr, ctlFf, hff]
    rfl
  have hstd := exec_drMsgStd hr hmsg hclass
  rw [window_cons hq] at hstd
  refine ⟨fun h => ?_, fun h ha hf => ?_, fun h ha hf => ?_⟩
  · rw [hstd (.inr h), admitMessage_rejected h]
    exact congrArg Host.Outcome.next (finishMessage_cons hq)
  · rw [hstd (.inl ha), admitMessage_pushed h hf]
    exact congrArg Host.Outcome.next (finishMessage_cons hq)
  · rw [hstd (.inl ha), admitMessage_dropped h hf]
    exact congrArg Host.Outcome.next (finishMessage_cons hq)

/-! ### The drainer's turn -/

section

variable {s : State} {l : List Turn} (h : s.agenda = .drainer :: l) (hr : rxcReady s = true)

include h hr

theorem fetch_drainer : fetch s = drainerTurn { s with agenda := l } := by
  simp only [fetch, h]
  exact ownTurn_ready (s := { s with agenda := l }) hr _

theorem step_drainer_run {i : Instr} (hi : drainerInstr s = some i) : step s = exec i { s with agenda := l } := by
  have hi' : drainerInstr { s with agenda := l } = some i := hi
  exact step_of_fetch_run (by rw [fetch_drainer h hr, drainerTurn, hi'])

theorem step_drainer_pass (hi : drainerInstr s = none) : step s = .next { s with agenda := l } := by
  have hi' : drainerInstr { s with agenda := l } = none := hi
  exact step_of_fetch_pass (by rw [fetch_drainer h hr, drainerTurn, hi'])

end

/-- Settles O8: in each phase `drainerInstr` names the one step that is enabled. -/
theorem stepRunsDrainer : Obligations.StepRunsDrainer := by
  intro s l h hr
  refine ⟨fun hph he => ?_, fun hph he => ?_, fun hph => ?_, fun hph hrem => ?_, fun hph hrem => ?_⟩
  · exact step_drainer_run h hr (by simp [drainerInstr, hph, he])
  · exact step_drainer_pass h hr (by simp [drainerInstr, hph, he])
  · exact step_drainer_run h hr (by simp [drainerInstr, hph])
  · exact step_drainer_run h hr (by simp [drainerInstr, hph, hrem])
  · exact step_drainer_run h hr (by simp only [drainerInstr, hph, if_neg hrem])

/-! ### An invocation's progress -/

theorem finishMessage_keeps (s : State) :
    (finishMessage s).drPhase = s.drPhase ∧ (finishMessage s).drRemaining = s.drRemaining - 1 := by
  obtain ⟨_, _, _, h⟩ := regWrite_macOnly .cmd (cmdRrb.setWidth 32) s
  simp only [finishMessage, h, and_self]

/-- While the queue exists the message in the window is handled, whatever its class, and counted off (R245). -/
theorem exec_drMsg_counts {s : State} (hr : rxcReady s = true) (ha : s.qAlloc = true)
    (hmsg : msgReady s = true) :
    ∃ t, exec (decodeRxctrl (window s)[0]) s = .next t ∧ t.drPhase = s.drPhase ∧
      t.drRemaining = s.drRemaining - 1 := by
  rw [decodeRxctrl_eq]
  cases hrtr : ctlRtr (window s)[0] with
  | true =>
    have hc : headClass s = .remote := by simp [headClass, captureClass, hrtr]
    exact ⟨_, exec_drMsgRtr hr hmsg hc, finishMessage_keeps s⟩
  | false =>
    cases hff : ctlFf (window s)[0] with
    | true =>
      have hc : headClass s = .extended := by simp [headClass, captureClass, hrtr, hff]
      exact ⟨_, exec_drMsgExt hr hmsg hc, finishMessage_keeps s⟩
    | false =>
      have hc : headClass s = .standardData := by simp [headClass, captureClass, hrtr, hff]
      obtain ⟨_, _, _, _, hadmit⟩ := admitMessage_frame (window s) s
      have hstd := exec_drMsgStd hr hmsg hc (.inl ha)
      rw [hadmit] at hstd
      exact ⟨_, hstd, finishMessage_keeps _⟩

/-- Settles O39: DR.COUNT leads to as many messages as it read, each of them is counted off in one turn, and
DR.EXIT follows. -/
theorem invocationProgress : Obligations.InvocationProgress := by
  intro s l hr ha h hc
  obtain ⟨-, -, hcount, hexit, hmsg⟩ := stepRunsDrainer s l h hr
  cases hph : s.drPhase with
  | idle => simp [csHeld, hph] at hc
  | count =>
    have hnext := countEffect { s with agenda := l } hr hph
    exact ⟨_, (hcount hph).trans hnext, by simp [drainSteps, hph]⟩
  | drain =>
    by_cases hrem : s.drRemaining = 0
    · have hnext := exitEffect { s with agenda := l } hr hph hrem
      exact ⟨_, (hexit hph hrem).trans hnext, by simp [drainSteps, hph, hrem]⟩
    · obtain ⟨t, hnext, htph, htrem⟩ :=
        exec_drMsg_counts (s := { s with agenda := l }) hr ha (msgReady_of_drain hph hrem)
      refine ⟨t, (hmsg hph hrem).trans hnext, ?_⟩
      simp only [drainSteps, htph, htrem, hph]
      bv_omega

/-! ### The MAC's steps -/

section

variable {s : State} (hp : s.powered = true)

include hp

theorem macWhen_ready (m : String) (s' : State) : macWhen m true s s' = .next s' := by
  simp [macWhen, hp]

theorem exec_macRx (hm : modeRm s.mac.mode = false) (m : RawMsg) :
    exec (.macRx m) s = .next (receive m s) := by
  rw [exec, execMacRx, hm]
  exact macWhen_ready hp _ _

theorem exec_macErr (hm : modeRm s.mac.mode = false) (b : ErrBit) :
    exec (.macErr b) s = .next (setStatus b.bit s) := by
  rw [exec, execMacErr, hm]
  exact macWhen_ready hp _ _

end

theorem rxAccepts_iff {s : State} {m : RawMsg} :
    rxAccepts s m = true ↔ s.mac.rxq.length < s.cfg.rxfifoMsgs ∧ s.cfg.acfMatch (acf s) m = true := by
  simp [rxAccepts]

/-- An accepted message is appended, and `RX` latched if it is enabled (R254). -/
theorem receive_accepted {s : State} {m : RawMsg} (h : rxAccepts s m = true) :
    receive m s = { s with mac := { s.mac with
      rxq := s.mac.rxq ++ [m]
      isr := if s.mac.ier.getLsbD 0 then s.mac.isr ||| 0x01 else s.mac.isr } } := by
  rw [receive, if_pos h, setStatus]
  cases s.mac.ier.getLsbD 0 <;> rfl

theorem receive_lost {s : State} {m : RawMsg} (h : rxAccepts s m = false) : receive m s = s := by
  rw [receive, h]
  rfl

/-- Settles O51: the FIFO's room and the filter decide on a message, the enable mask on a status bit. -/
theorem macEffect : Obligations.MacEffect := by
  refine ⟨⟨rfl, rfl, rfl, rfl⟩, fun s m b hp hm => ?_⟩
  rw [exec_macRx hp hm, exec_macErr hp hm]
  refine ⟨fun hroom hpass => ?_, fun hlost => ?_, fun hen => ?_, fun hmasked => ?_⟩
  · rw [receive_accepted (rxAccepts_iff.2 ⟨hroom, hpass⟩)]
  · have hrejects : rxAccepts s m = false := by
      rw [Bool.eq_false_iff, ne_eq, rxAccepts_iff]
      rintro ⟨hroom, hpass⟩
      obtain hfull | hfilter := hlost
      · omega
      · simp [hfilter] at hpass
    rw [receive_lost hrejects]
  · rw [setStatus, if_pos hen]
  · rw [setStatus, hmasked]
    rfl

/-! ### The operations that configure the MAC -/

/-- All that INSTALL, START and UNINSTALL may change: the lifecycle, the pointers, the queue's existence, the pin, the
MAC with its draws, and the returned value (R201, R202, R204). -/
def ConfigFrame (s t : State) : Prop :=
  t = { s with
    life := t.life, running := t.running, wptr := t.wptr, rptr := t.rptr, wptrGs := t.wptrGs, rptrGs := t.rptrGs
    qAlloc := t.qAlloc, rxpinFloating := t.rxpinFloating, mac := t.mac, resetAcks := t.resetAcks
    draws := t.draws, ret := t.ret }

/-- How such an operation ends: held inside an invocation (R72), or done outside one; INSTALL alone may empty the
MAC's FIFO (R256). -/
inductive ConfigOutcome (i : Instr) (s : State) : State → Prop
  | held (op : HeldOp) : ConfigOutcome i s { s with hostHeld := some op }
  | done {t : State} (hc : csHeld s = false) (hframe : ConfigFrame s t)
      (hq : t.mac.rxq = s.mac.rxq ∨ i = .install ∧ t.mac.rxq = []) : ConfigOutcome i s t

/-- A write of `MAC.MODE` keeps the MAC's FIFO or empties it (R256). -/
theorem writeMode_rxq (v : Byte) (s : State) :
    (writeMode v s).mac.rxq = s.mac.rxq ∨ (writeMode v s).mac.rxq = [] := by
  cases hv : modeRm v with
  | false => simp [writeMode, hv]
  | true =>
    cases hack : (drawAck s).1 with
    | false => simp [writeMode_declined hv hack]
    | true => cases hflush : s.cfg.macResetFlush <;> simp [writeMode_entered hv hack, hflush]

theorem installBody_outcome {s : State} (hc : csHeld s = false) : ConfigOutcome .install s (installBody s) := by
  have hq := writeMode_rxq (modeByte true s.cfg.filter.single) (qAllocate s)
  obtain ⟨m, acks, d, hmode⟩ := writeMode_macOnly (modeByte true s.cfg.filter.single) (qAllocate s)
  simp only [installBody_eq, regWrite_mode]
  rw [hmode] at hq ⊢
  split
  · next hrm =>
    rw [installConfigure_eq hrm]
    exact .done hc rfl (hq.imp_right fun h => ⟨rfl, h⟩)
  · exact .done hc rfl (hq.imp_right fun h => ⟨rfl, h⟩)

theorem startBody_outcome {s : State} (hc : csHeld s = false) : ConfigOutcome .start s (startBody s) := by
  simp only [startBody, regWrite_mode, writeMode_operational]
  exact .done hc rfl (.inl rfl)

theorem uninstallBody_outcome {s : State} (hc : csHeld s = false) :
    ConfigOutcome .uninstall s (uninstallBody s) := by
  simp only [uninstallBody, regWrite, regRead, clearIsr, qFree]
  exact .done hc rfl (.inl rfl)

theorem leads_configOutcome {i : Instr} {op : HeldOp} {s t : State}
    (h : csHeld s = false → ConfigOutcome i s t) : Leads (ConfigOutcome i s) (heldOr op s (.next t)) := by
  intro u hu
  obtain ⟨-, rfl⟩ | ⟨hc, ⟨⟩⟩ := heldOr_next hu
  · exact .held op
  · exact h hc

/-- The three rows, each behind its own test of `life` (R208). -/
theorem exec_configRow {i : Instr} (hi : configRow i = true) (s : State) :
    Leads (ConfigOutcome i s) (exec i s) := by
  cases i with
  | install =>
    exact leads_hostGated (leads_ite (fun _ => leads_configOutcome installBody_outcome) fun _ => leads_refused _)
  | start =>
    exact leads_hostGated (leads_ite (fun _ => leads_configOutcome startBody_outcome) fun _ => leads_refused _)
  | uninstall =>
    exact leads_hostGated (leads_ite (fun _ => leads_refused _) fun _ =>
      leads_configOutcome uninstallBody_outcome)
  | _ => cases hi

/-- COMMAND leads wherever the four rows of the remote commands lead (R151). -/
theorem leads_command {P : State → Prop} {s : State} (b : List Byte) (hdeny : Leads P (exec .cmdDenyAll s))
    (hallow : ∀ iv, Leads P (exec (.cmdAllowAll iv) s)) (hid : ∀ iv id, Leads P (exec (.cmdAllowId iv id) s))
    (hinvalid : Leads P (exec (.cmdInvalid b) s)) : Leads P (exec (.command b) s) := by
  rw [exec_command]
  obtain ⟨-, h | ⟨iv, h⟩ | ⟨iv, id, h⟩⟩ | ⟨-, h⟩ := decodeRcmd_cases b <;> rw [h]
  · exact hdeny
  · exact hallow iv
  · exact hid iv id
  · exact hinvalid

/-! ### The sequencing of drainer and host -/

/-- What decides whether the drainer's count, the sweep, the hold and the fault bit fit the rest of the state (R29,
R39, R46, R49, R72): the FIFO and the table enter with their lengths. -/
structure Sequencing where
  cfg : Config
  powered : Bool
  faultCfg : Bool
  drPhase : DrPhase
  drRemaining : BitVec 8
  fifo : Nat
  swKind : SweepKind
  swK : Nat
  entries : Nat
  hostHeld : Option HeldOp

def State.sequencing (s : State) : Sequencing :=
  ⟨s.cfg, s.powered, s.faultCfg, s.drPhase, s.drRemaining, s.mac.rxq.length, s.swKind, s.swK, s.tab.length,
    s.hostHeld⟩

/-- Everything a step can do to the sequencing. -/
inductive SequencingStep : Sequencing → Sequencing → Prop
  | same (v : Sequencing) : SequencingStep v v
  | phase (v : Sequencing) (ph : DrPhase) (hph : ph ≠ .drain) : SequencingStep v { v with drPhase := ph }
  | counted (v : Sequencing) :
      SequencingStep v { v with drRemaining := BitVec.ofNat 8 v.fifo, drPhase := .drain }
  | released (v : Sequencing) (hrem : v.drRemaining ≠ 0) :
      SequencingStep v { v with fifo := v.fifo - 1, drRemaining := v.drRemaining - 1 }
  | received (v : Sequencing) (hroom : v.fifo < v.cfg.rxfifoMsgs) :
      SequencingStep v { v with fifo := v.fifo + 1 }
  | flushed (v : Sequencing) (hph : v.drPhase = .idle) : SequencingStep v { v with fifo := 0 }
  | sweepStarted (v : Sequencing) (k : SweepKind) (hn : v.entries ≠ 0) (hheld : v.hostHeld = none) :
      SequencingStep v { v with swKind := k, swK := 0 }
  | swept (v : Sequencing) (hk : v.swKind ≠ .none) :
      SequencingStep v { v with
        swK := v.swK + 1, swKind := if v.swK + 1 = v.entries then .none else v.swKind }
  | held (v : Sequencing) (op : HeldOp) (hk : v.swKind = .none) :
      SequencingStep v { v with hostHeld := some op }
  | resumed (v : Sequencing) : SequencingStep v { v with hostHeld := none }
  | reset (v : Sequencing) (n : Nat) (hn : n ≤ v.cfg.rxfifoMsgs) :
      SequencingStep v { (State.resetWith v.cfg).sequencing with fifo := n }

theorem SequencingStep.of_eq {v w : Sequencing} (h : w = v) : SequencingStep v w := h ▸ .same v

/-! #### Operations -/

theorem startSweep_sequencingStep (k : SweepKind) {s : State} (hheld : s.hostHeld = none) :
    SequencingStep s.sequencing (startSweep k s).sequencing := by
  unfold startSweep
  split
  · exact .same s.sequencing
  · next hn => exact .sweepStarted s.sequencing k hn hheld

theorem sweepOne_sequencingStep {s : State} (hk : s.swKind ≠ .none) :
    SequencingStep s.sequencing (sweepOne s).sequencing := by
  simp only [sweepOne, State.sequencing, sweepTable_length]
  exact .swept s.sequencing hk

theorem zeroCounter_sequencing (sel : CounterSel) (s : State) :
    (zeroCounter sel s).sequencing = s.sequencing := by
  cases sel <;> rfl

theorem tryPush_sequencing (f : Frame) (s : State) : (tryPush f s).2.sequencing = s.sequencing := by
  unfold tryPush
  split <;> rfl

theorem tryPop_sequencing (s : State) : (tryPop s).2.sequencing = s.sequencing := by
  unfold tryPop
  split <;> rfl

theorem recvBody_sequencing (s : State) : (recvBody s).sequencing = s.sequencing := by
  unfold recvBody
  split <;> exact tryPop_sequencing s

theorem shouldDecode_sequencing (id : Word32) (s : State) :
    (shouldDecode id s).2.sequencing = s.sequencing := by
  simp only [shouldDecode, State.sequencing, admission_length]

theorem allowInTable_sequencing (id : Word32) (s : State) :
    State.sequencing { s with tab := allowInTable s.tab id } = s.sequencing := by
  simp only [State.sequencing, allowInTable_length]

theorem admitMessage_sequencing (w : RawMsg) (s : State) : (admitMessage w s).sequencing = s.sequencing := by
  obtain ⟨_, _, _, _, h⟩ := admitMessage_frame w s
  simp only [h, State.sequencing, admission_length]

theorem takeInterrupt_sequencing (s : State) : (takeInterrupt s).2.sequencing = s.sequencing := by
  simp only [takeInterrupt_eq, State.sequencing]

/-- The release shortens the FIFO by one message, if it holds one (R257). -/
theorem finishMessage_sequencing (s : State) :
    (finishMessage s).sequencing =
      { s.sequencing with fifo := s.sequencing.fifo - 1, drRemaining := s.sequencing.drRemaining - 1 } := by
  simp only [finishMessage, regWrite_cmd_rrb]
  obtain ⟨m, l, hq, h⟩ | ⟨hq, h⟩ := release_cases s <;> rw [h] <;> simp [State.sequencing, hq]

theorem finishMessage_sequencingStep {s t : State} (ht : t.sequencing = s.sequencing)
    (hmsg : msgReady s = true) : SequencingStep s.sequencing (finishMessage t).sequencing := by
  obtain ⟨-, hrem⟩ := Bool.and_eq_true_iff.1 hmsg
  rw [finishMessage_sequencing, ht]
  exact .released s.sequencing (bne_iff_ne.1 hrem)

theorem setStatus_sequencing (b : Nat) (s : State) : (setStatus b s).sequencing = s.sequencing := by
  obtain ⟨-, h⟩ | ⟨-, h⟩ := setStatus_cases b s <;> rw [h]
  rfl

/-- A message that arrives found room (R254). -/
theorem receive_sequencingStep (m : RawMsg) (s : State) :
    SequencingStep s.sequencing (receive m s).sequencing := by
  cases h : rxAccepts s m with
  | false => exact .of_eq (by rw [receive_lost h])
  | true =>
    obtain ⟨hroom, -⟩ := rxAccepts_iff.1 h
    rw [receive_accepted h]
    simp only [State.sequencing, List.length_append, List.length_singleton]
    exact .received s.sequencing hroom

theorem ConfigOutcome.sequencingStep {i : Instr} {s t : State} (h : ConfigOutcome i s t)
    (hk : s.swKind = .none) : SequencingStep s.sequencing t.sequencing := by
  cases h with
  | held op => exact .held s.sequencing op hk
  | done hc hframe hq =>
    have ht : t.sequencing = { s.sequencing with fifo := t.mac.rxq.length } :=
      congrArg State.sequencing hframe
    obtain hq | ⟨-, hq⟩ := hq <;> rw [ht, hq]
    · exact .same s.sequencing
    · have hidle : s.drPhase = .idle := by simpa [csHeld] using hc
      exact .flushed s.sequencing hidle

/-- RESET gives RXC the state after reset, with some storage and some MAC (R291). -/
theorem powerOn_eq (s : State) : powerOn s = { State.resetWith s.cfg with
    slots := (List.range s.cfg.n).map (Config.freeSlot s.draws)
    mac := freeMac s.draws s.cfg.rxfifoMsgs
    agenda := s.agenda, resetAcks := s.resetAcks, draws := s.draws + 1 } := by
  cases hwf : s.cfg.wf <;> simp [powerOn, checkConfig, raise, State.resetWith, hwf]

/-- RESET leaves no more messages in the FIFO than its bound (R291, U11). -/
theorem powerOn_sequencingStep (s : State) : SequencingStep s.sequencing (powerOn s).sequencing := by
  rw [powerOn_eq]
  exact .reset s.sequencing _ (List.length_take_le _ _)

/-! #### Rows and steps -/

theorem hostBusy_eq_false {s : State} : hostBusy s = false ↔ s.swKind = .none ∧ s.hostHeld = none := by
  simp [hostBusy]

/-- A gate passed says that the host is in no sweep and held in no operation (R46, R207). -/
theorem leads_hostGated_free {P : State → Prop} {m : String} {s : State} {r : Result}
    (h : s.swKind = .none → s.hostHeld = none → Leads P r) : Leads P (hostGated m s r) := fun t ht => by
  obtain ⟨-, -, hb, hr⟩ := hostGated_next ht
  obtain ⟨hk, hheld⟩ := hostBusy_eq_false.1 hb
  exact h hk hheld t hr

section

variable {s : State}

theorem leads_sequencing {t : State} (h : t.sequencing = s.sequencing) :
    Leads (fun t => SequencingStep s.sequencing t.sequencing) (.next t) :=
  leads_next (.of_eq h)

theorem leads_sweepStart_sequencing (m : String) (k : SweepKind) :
    Leads (fun t => SequencingStep s.sequencing t.sequencing)
      (hostGated m s (.next (setRet .unit (startSweep k s)))) :=
  leads_hostGated_free fun _ hheld => leads_next (startSweep_sequencingStep k hheld)

theorem leads_allowId_sequencing (m : String) (id : Word32) :
    Leads (fun t => SequencingStep s.sequencing t.sequencing)
      (hostGated m s (.next (setRet .unit { s with tab := allowInTable s.tab id }))) :=
  leads_hostGated (leads_sequencing (allowInTable_sequencing id s))

theorem leads_cmdInvalid_sequencing (b : List Byte) :
    Leads (fun t => SequencingStep s.sequencing t.sequencing) (execCmdInvalid b s) :=
  leads_hostGated (leads_sequencing rfl)

/-- A lifecycle operation is issued by a free host, so it may be held (R72, R207). -/
theorem leads_config_sequencing {i : Instr} (hi : configRow i = true) :
    Leads (fun t => SequencingStep s.sequencing t.sequencing) (exec i s) := by
  have hgate : ∃ m r, exec i s = hostGated m s r := by
    cases i with
    | install | start | uninstall => exact ⟨_, _, rfl⟩
    | _ => cases hi
  obtain ⟨m, r, hexec⟩ := hgate
  have hout := exec_configRow hi s
  rw [hexec] at hout ⊢
  intro t ht
  obtain ⟨-, -, hb, -⟩ := hostGated_next ht
  exact (hout t ht).sequencingStep (hostBusy_eq_false.1 hb).1

end

/-- No row does more to the sequencing than `SequencingStep` says. -/
theorem exec_sequencingStep (i : Instr) (s : State) :
    Leads (fun t => SequencingStep s.sequencing t.sequencing) (exec i s) := by
  cases i with
  | install | start | uninstall => exact leads_config_sequencing rfl
  | stop | depth => exact leads_hostGated (leads_ite (fun _ => leads_sequencing rfl) fun _ => leads_refused _)
  | recv =>
    exact leads_hostGated (leads_ite (fun _ => leads_sequencing (recvBody_sequencing s)) fun _ =>
      leads_refused _)
  | canDecode id => exact leads_hostGated (leads_sequencing rfl)
  | snapshot sel => exact leads_hostGated (leads_sequencing (zeroCounter_sequencing sel s))
  | denyAll | allowAll | cmdDenyAll | cmdAllowAll _ => exact leads_sweepStart_sequencing _ _
  | allowId id | cmdAllowId _ id => exact leads_allowId_sequencing _ id
  | cmdInvalid b => exact leads_cmdInvalid_sequencing b
  | command b =>
    exact leads_command b (leads_sweepStart_sequencing _ _) (fun _ => leads_sweepStart_sequencing _ _)
      (fun _ => leads_allowId_sequencing _) (leads_cmdInvalid_sequencing b)
  | hostopReserved low => exact leads_refused _
  | drEntryRx =>
    refine leads_stepWhen ?_
    rw [entryRx, takeInterrupt_eq]
    exact .phase s.sequencing .count (by decide)
  | drEntryErr | drEntryNone => exact leads_stepWhen (.of_eq (takeInterrupt_sequencing s))
  | captureClass _ | syncW | syncR => exact leads_stepWhen (.same s.sequencing)
  | drCount =>
    refine leads_stepWhen ?_
    rw [regRead_rmc]
    exact .counted s.sequencing
  | drMsgRtr | drMsgExt =>
    exact leads_stepWhen_of fun h => finishMessage_sequencingStep (t := s) rfl (Bool.and_eq_true_iff.1 h).1
  | drMsgStd =>
    refine leads_stepWhen_of fun h => finishMessage_sequencingStep (admitMessage_sequencing _ s) ?_
    exact (Bool.and_eq_true_iff.1 (Bool.and_eq_true_iff.1 h).1).1
  | drExit => exact leads_stepWhen (.phase s.sequencing .idle (by decide))
  | sweepStep => exact leads_stepWhen_of fun h => sweepOne_sequencingStep (bne_iff_ne.1 h)
  | shouldDecode id => exact leads_stepWhen (.of_eq (shouldDecode_sequencing id s))
  | tryPush f => exact leads_stepWhen (.of_eq (tryPush_sequencing f s))
  | tryPop => exact leads_stepWhen (.of_eq (tryPop_sequencing s))
  | macRx m => exact leads_macWhen (receive_sequencingStep m s)
  | macErr b => exact leads_macWhen (.of_eq (setStatus_sequencing _ s))
  | reset => exact leads_ite (fun _ => leads_refused _) fun _ => leads_next (powerOn_sequencingStep s)

/-- Where a step runs from, a hold may have been lifted and nothing else of the sequencing has changed (R72). -/
theorem RunsFrom.sequencingStep {s s' : State} (h : RunsFrom s s') :
    SequencingStep s.sequencing s'.sequencing := by
  obtain ⟨h, hheld⟩ := h
  have hs' : s'.sequencing = { s.sequencing with hostHeld := s'.hostHeld } := congrArg State.sequencing h
  obtain hheld | ⟨hheld, -⟩ := hheld <;> rw [hs', hheld]
  · exact .same s.sequencing
  · exact .resumed s.sequencing

/-- A step is two moves of the sequencing: the fetch, and the row or nothing. -/
theorem step_sequencingStep {s t : State} (h : step s = .next t) :
    ∃ v, SequencingStep s.sequencing v ∧ SequencingStep v t.sequencing := by
  obtain ⟨i, s', -, hs, hx⟩ | hs := step_cases h
  · exact ⟨_, hs.sequencingStep, exec_sequencingStep i s' t hx⟩
  · exact ⟨_, hs.sequencingStep, .same _⟩

/-! #### What every move keeps -/

/-- `DrainInv` as a fact of the sequencing. -/
def Sequencing.DrainOk (v : Sequencing) : Prop :=
  (v.drPhase = .drain → v.drRemaining.toNat ≤ v.fifo) ∧ v.fifo ≤ v.cfg.rxfifoMsgs

/-- `SweepInv` as a fact of the sequencing. -/
def Sequencing.SweepOk (v : Sequencing) : Prop :=
  (v.swKind ≠ .none → v.swK < v.entries) ∧ (v.hostHeld.isSome = true → v.swKind = .none)

/-- `FaultInv` as a fact of the sequencing. -/
def Sequencing.FaultOk (v : Sequencing) : Prop := v.powered = true → v.faultCfg = !v.cfg.wf

theorem drainInv_iff (s : State) : DrainInv s ↔ s.sequencing.DrainOk := Iff.rfl

theorem sweepInv_iff (s : State) : SweepInv s ↔ s.sequencing.SweepOk := Iff.rfl

theorem faultInv_iff (s : State) : FaultInv s ↔ s.sequencing.FaultOk := Iff.rfl

section

variable {v w : Sequencing} (h : SequencingStep v w)

include h

theorem SequencingStep.cfg_eq : w.cfg = v.cfg := by
  cases h <;> rfl

theorem SequencingStep.drainOk (hv : v.DrainOk) : w.DrainOk := by
  obtain ⟨hcount, hbound⟩ := hv
  cases h with
  | same | sweepStarted | swept | held | resumed => exact ⟨hcount, hbound⟩
  | phase ph hph => exact ⟨fun h => absurd h hph, hbound⟩
  | counted => exact ⟨fun _ => (BitVec.toNat_ofNat v.fifo 8).trans_le (Nat.mod_le _ _), hbound⟩
  | released hrem =>
    refine ⟨fun hph => ?_, (Nat.sub_le _ _).trans hbound⟩
    have hle : v.drRemaining.toNat ≤ v.fifo := hcount hph
    change (v.drRemaining - 1).toNat ≤ v.fifo - 1
    bv_omega
  | received hroom => exact ⟨fun hph => (hcount hph).trans (Nat.le_succ _), hroom⟩
  | flushed hph => exact ⟨fun h => by simp [hph] at h, Nat.zero_le _⟩
  | reset n hn => exact ⟨fun h => DrPhase.noConfusion h, hn⟩

theorem SequencingStep.sweepOk (hv : v.SweepOk) : w.SweepOk := by
  obtain ⟨hplace, hone⟩ := hv
  cases h with
  | same | phase | counted | released | received | flushed => exact ⟨hplace, hone⟩
  | sweepStarted k hn hheld => exact ⟨fun _ => Nat.pos_of_ne_zero hn, fun h => by simp [hheld] at h⟩
  | swept hk =>
    have hlt : v.swK < v.entries := hplace hk
    refine ⟨fun h => ?_, fun h => absurd (hone h) hk⟩
    have hnot : v.swK + 1 ≠ v.entries := fun hend => h (if_pos hend)
    change v.swK + 1 < v.entries
    omega
  | held op hk => exact ⟨hplace, fun _ => hk⟩
  | resumed => exact ⟨hplace, fun h => Bool.noConfusion h⟩
  | reset => exact ⟨fun h => absurd rfl h, fun _ => rfl⟩

theorem SequencingStep.faultOk (hv : v.FaultOk) : w.FaultOk := by
  cases h with
  | reset => exact fun _ => rfl
  | _ => exact hv

end

/-- Settles O56: the fetch and the row are each one move of the sequencing, and a move keeps each of the three
invariants by itself. -/
theorem sequencingInvariantsKept : Obligations.SequencingInvariantsKept := by
  intro s t h
  obtain ⟨v, hfetch, hrow⟩ := step_sequencingStep h
  exact ⟨hrow.cfg_eq.trans hfetch.cfg_eq, fun hs => hrow.drainOk (hfetch.drainOk hs),
    fun hs => hrow.sweepOk (hfetch.sweepOk hs), fun hs => hrow.faultOk (hfetch.faultOk hs)⟩

/-! ### What the interrupt context may write -/

/-- What a drainer row leaves as it is (R240): the lifecycle, the MAC's registers but for its status, the consumer
side, the table but for the counts, the forwarded count, the sweep and the host's streams. -/
structure TaskSide where
  life : Life
  running : Bool
  settings : Mac
  rptr : Nat
  wptrGs : Nat
  rptrGs : Nat
  qAlloc : Bool
  cntForwarded : Word32
  swKind : SweepKind
  swK : Nat
  sink : List (List Byte)
  log : List LogEntry
  rates : List (Word32 × Nat × Nat)

def State.taskSide (s : State) : TaskSide where
  life := s.life
  running := s.running
  settings := { s.mac with isr := 0, rxq := [] }
  rptr := s.rptr
  wptrGs := s.wptrGs
  rptrGs := s.rptrGs
  qAlloc := s.qAlloc
  cntForwarded := s.cntForwarded
  swKind := s.swKind
  swK := s.swK
  sink := s.sink
  log := s.log
  rates := s.tab.map fun e => (e.id, e.dflt, e.rate)

theorem takeInterrupt_taskSide (s : State) : (takeInterrupt s).2.taskSide = s.taskSide := by
  simp only [takeInterrupt_eq, State.taskSide]

theorem finishMessage_taskSide (s : State) : (finishMessage s).taskSide = s.taskSide := by
  simp only [finishMessage, regWrite_cmd_rrb]
  obtain ⟨_, _, -, h⟩ | ⟨-, h⟩ := release_cases s <;> rw [h] <;> rfl

/-- The admission test rewrites a count alone (R143). -/
theorem admission_rates (tab : List Entry) (id : Word32) :
    (admission tab id).2.map (fun e => (e.id, e.dflt, e.rate)) = tab.map fun e => (e.id, e.dflt, e.rate) := by
  obtain ⟨-, h⟩ | ⟨k, e, -, he, -, h⟩ := admission_cases tab id <;> rw [h]
  rw [← modify_of_entry he fun e => (admitEntry e).2]
  exact map_modify_of_keeps (by simp) k tab

theorem admitMessage_taskSide (w : RawMsg) (s : State) : (admitMessage w s).taskSide = s.taskSide := by
  obtain ⟨_, _, _, _, h⟩ := admitMessage_frame w s
  simp only [h, State.taskSide, admission_rates]

theorem exec_taskSide {i : Instr} (hi : drainerRow i = true) (s : State) :
    Leads (fun t => t.taskSide = s.taskSide) (exec i s) := by
  cases i with
  | drEntryRx | drEntryErr | drEntryNone => exact leads_stepWhen (takeInterrupt_taskSide s)
  | drCount | drExit => exact leads_stepWhen (Eq.refl s.taskSide)
  | drMsgRtr | drMsgExt => exact leads_stepWhen (finishMessage_taskSide s)
  | drMsgStd => exact leads_stepWhen ((finishMessage_taskSide _).trans (admitMessage_taskSide _ s))
  | _ => cases hi

/-! ### What the task context may write -/

/-- The drainer's working state and the counters it counts in (R29, R31), with the slots it writes (R25). -/
structure DrainerSide where
  slots : List Frame
  drPhase : DrPhase
  drRemaining : BitVec 8
  drPushed : Bool
  resched : Nat
  cntIrq : Word32
  cntErr : Word32
  cntAdmitted : Word32

def State.drainerSide (s : State) : DrainerSide :=
  ⟨s.slots, s.drPhase, s.drRemaining, s.drPushed, s.resched, s.cntIrq, s.cntErr, s.cntAdmitted⟩

/-- What a host row may do to them: nothing, or read one of the counters, which zeroes it (R206). -/
inductive CounterRead : DrainerSide → DrainerSide → Prop
  | same (v : DrainerSide) : CounterRead v v
  | irq (v : DrainerSide) : CounterRead v { v with cntIrq := 0 }
  | err (v : DrainerSide) : CounterRead v { v with cntErr := 0 }
  | admitted (v : DrainerSide) : CounterRead v { v with cntAdmitted := 0 }

theorem CounterRead.of_eq {v w : DrainerSide} (h : w = v) : CounterRead v w := h ▸ .same v

/-- The MAC, the producer side and the storage's existence, which INSTALL, START and UNINSTALL alone write among
the host rows (R240). -/
structure Hardware where
  mac : Mac
  wptr : Nat
  wptrGs : Nat
  rptrGs : Nat
  qAlloc : Bool
  running : Bool

def State.hardware (s : State) : Hardware := ⟨s.mac, s.wptr, s.wptrGs, s.rptrGs, s.qAlloc, s.running⟩

/-- What a host row that configures nothing leads to. -/
def TaskStep (s t : State) : Prop :=
  CounterRead s.drainerSide t.drainerSide ∧ t.hardware = s.hardware

theorem TaskStep.refl (s : State) : TaskStep s s := ⟨.same _, rfl⟩

theorem startSweep_taskStep (k : SweepKind) (s : State) : TaskStep s (startSweep k s) := by
  unfold startSweep
  split <;> exact ⟨.same _, rfl⟩

theorem zeroCounter_taskStep (sel : CounterSel) (s : State) : TaskStep s (zeroCounter sel s) := by
  cases sel with
  | irq => exact ⟨.irq s.drainerSide, rfl⟩
  | err => exact ⟨.err s.drainerSide, rfl⟩
  | admitted => exact ⟨.admitted s.drainerSide, rfl⟩
  | forwarded => exact ⟨.same s.drainerSide, rfl⟩

theorem recvBody_taskStep (s : State) : TaskStep s (recvBody s) := by
  have hpop : TaskStep s (tryPop s).2 := by
    unfold tryPop
    split <;> exact ⟨.same _, rfl⟩
  unfold recvBody
  split <;> exact hpop

theorem leads_sweepStart_taskStep {s : State} (m : String) (k : SweepKind) :
    Leads (TaskStep s) (hostGated m s (.next (setRet .unit (startSweep k s)))) :=
  leads_hostGated (leads_next (startSweep_taskStep k s))

/-- No host row but the three that configure does more than `TaskStep` says. -/
theorem exec_taskStep {i : Instr} (hi : hostRow i = true) (hc : configRow i = false) (s : State) :
    Leads (TaskStep s) (exec i s) := by
  cases i with
  | install | start | uninstall => cases hc
  | stop | depth => exact leads_hostGated (leads_ite (fun _ => leads_next (.refl s)) fun _ => leads_refused _)
  | recv =>
    exact leads_hostGated (leads_ite (fun _ => leads_next (recvBody_taskStep s)) fun _ => leads_refused _)
  | canDecode _ | allowId _ | cmdAllowId _ _ | cmdInvalid _ => exact leads_hostGated (leads_next (.refl s))
  | snapshot sel => exact leads_hostGated (leads_next (zeroCounter_taskStep sel s))
  | denyAll | allowAll | cmdDenyAll | cmdAllowAll _ => exact leads_sweepStart_taskStep _ _
  | command b =>
    exact leads_command b (leads_sweepStart_taskStep _ _) (fun _ => leads_sweepStart_taskStep _ _)
      (fun _ _ => leads_hostGated (leads_next (.refl s))) (leads_hostGated (leads_next (.refl s)))
  | hostopReserved _ => exact leads_refused _
  | sweepStep => exact leads_stepWhen (.refl s)
  | _ => cases hi

/-- A row that configures leaves the drainer's side, and START and UNINSTALL leave the MAC's FIFO. -/
theorem ConfigOutcome.keeps {i : Instr} {s t : State} (h : ConfigOutcome i s t) :
    t.drainerSide = s.drainerSide ∧ (i ≠ .install → t.mac.rxq = s.mac.rxq) := by
  cases h with
  | held op => exact ⟨rfl, fun _ => rfl⟩
  | done hc hframe hq => exact ⟨(congrArg State.drainerSide hframe :), fun hi => hq.resolve_right fun h => hi h.1⟩

theorem exec_counterRead {i : Instr} (hi : hostRow i = true) {s t : State} (h : exec i s = .next t) :
    CounterRead s.drainerSide t.drainerSide ∧ (i ≠ .install → t.mac.rxq = s.mac.rxq) := by
  cases hc : configRow i with
  | true =>
    obtain ⟨hside, hq⟩ := (exec_configRow hc s t h).keeps
    exact ⟨.of_eq hside, hq⟩
  | false =>
    obtain ⟨hread, hhardware⟩ := exec_taskStep hi hc s t h
    exact ⟨hread, fun _ => congrArg (fun v => v.mac.rxq) hhardware⟩

/-- At most one of the three counters is zeroed, and nothing else of the drainer's side is written. -/
theorem CounterRead.keeps {v w : DrainerSide} (h : CounterRead v w) :
    w.slots = v.slots ∧ w.drPhase = v.drPhase ∧ w.drRemaining = v.drRemaining ∧ w.drPushed = v.drPushed ∧
      w.resched = v.resched ∧ (w.cntIrq = v.cntIrq ∨ w.cntIrq = 0) ∧ (w.cntErr = v.cntErr ∨ w.cntErr = 0) ∧
      (w.cntAdmitted = v.cntAdmitted ∨ w.cntAdmitted = 0) ∧ (w.cntIrq = v.cntIrq ∨ w.cntErr = v.cntErr) ∧
      (w.cntIrq = v.cntIrq ∨ w.cntAdmitted = v.cntAdmitted) ∧
      (w.cntErr = v.cntErr ∨ w.cntAdmitted = v.cntAdmitted) := by
  cases h <;> simp

/-- Once the power is on the table's identifiers and defaults stay (R24). -/
theorem ViewStep.keys {v w : View} (h : ViewStep v w) (hp : v.powered = true) :
    w.tab.map (fun e => (e.id, e.dflt)) = v.tab.map fun e => (e.id, e.dflt) := by
  cases h with
  | same | sent | rescheduled | logged => rfl
  | entry k hf => exact map_modify_of_keeps hf.id_dflt k v.tab
  | reset hoff => simp [hoff] at hp

/-- A host row that answers a next state ran with the power on (R290). -/
theorem powered_of_hostRow {i : Instr} (hi : hostRow i = true) {s t : State} (h : exec i s = .next t) :
    s.powered = true := by
  have hres (low : BitVec 2) : i ≠ .hostopReserved low := by
    rintro rfl
    cases h
  obtain ⟨r, hr⟩ := exec_gated (ungatedRow_of_hostRow hi hres) s
  exact (gated_next (hr ▸ h)).1

/-- Settles O57: a drainer row keeps the task's side; a host row reads at most one counter of the drainer's side; and
only the rows that configure reach the hardware. -/
theorem contextAccessRights : Obligations.ContextAccessRights := by
  intro i s t h
  refine ⟨fun hi => ?_, fun hi => ?_, fun hi hc => Hardware.mk.inj (exec_taskStep hi hc s t h).2⟩
  · obtain ⟨hlife, hrun, hset, hside⟩ := TaskSide.mk.inj (exec_taskSide hi s t h)
    obtain ⟨hmode, hier, -, hbtr0, hbtr1, hcode, hmask, -⟩ := Mac.mk.inj hset
    exact ⟨hlife, hrun, hmode, hier, hbtr0, hbtr1, hcode, hmask, hside⟩
  · obtain ⟨hread, hq⟩ := exec_counterRead hi h
    obtain ⟨hslots, hph, hrem, hpushed, hres, hi0, he0, ha0, hie, hia, hea⟩ := hread.keeps
    exact ⟨hslots, hph, hrem, hpushed, hres, hi0, he0, ha0, hie, hia, hea,
      (exec_viewStep i s t h).keys (powered_of_hostRow hi h), hq⟩

end Sys2Proof.Machine
end

section
/-!
SUPPORT. RESET and the hazards (70_reset_and_hazards.md): what RESET does (R290, R291), that the state it leads to meets
every invariant, and that RXC left to itself becomes quiescent within a bound (R305). With the proofs of the family
70_reset_and_hazards.md.
-/

namespace Sys2Proof.Machine

/-! ### RESET -/

/-- Settles O52: RESET asks only whether it has happened, and then gives the state after reset, with some storage and
some MAC. -/
theorem resetEffect : Obligations.ResetEffect := by
  refine fun s => ⟨fun hp => if_pos hp, fun hp => ?_⟩
  refine ⟨freeMac s.draws s.cfg.rxfifoMsgs, (List.range s.cfg.n).map (Config.freeSlot s.draws), ?_,
    List.length_take_le _ _, ?_⟩
  · exact (List.length_map _).trans List.length_range
  · rw [exec, execReset, hp, powerOn_eq]
    rfl

/-- Settles O53: the fields are read off, and with no handler, no queue, no sweep, an empty FIFO and an empty sink
little is asked: the table is the one DEC.NEW builds, and the fault bit is its check of the configuration. -/
theorem resetState : Obligations.ResetState := by
  intro c
  have hlife : Absent (State.resetWith c) := ⟨rfl, rfl, rfl, rfl⟩
  have hqueue : QueueInv (State.resetWith c) := queueInv_of_unallocated (resetWith_storage c) rfl
  have hdrain : DrainInv (State.resetWith c) := ⟨fun h => DrPhase.noConfusion h, Nat.zero_le _⟩
  have hsweep : SweepInv (State.resetWith c) := ⟨fun h => absurd rfl h, fun _ => rfl⟩
  have hframes : FrameInv (State.resetWith c) := ⟨fun h => Bool.noConfusion h, fun _ h => nomatch h⟩
  exact ⟨rfl, rfl, rfl, rfl, rfl, rfl, rfl, rfl, rfl, rfl, rfl, rfl, rfl, rfl, rfl, rfl, rfl, rfl, rfl, rfl, rfl,
    rfl, tableInv_resetWith c, hqueue, hlife.lifeInv, hdrain, hsweep, fun _ => rfl, hframes⟩

/-! ### RXC left to itself -/

/-- A handler is installed, and neither the outside nor a held operation moves RXC: its own agents go on (R305). -/
structure LeftAlone (s : State) : Prop where
  ready : rxcReady s = true
  handler : s.life ≠ .uninstalled
  queue : s.qAlloc = true
  unheld : s.hostHeld = none
  agenda : s.agenda = []
  sweep : s.swKind ≠ .none → s.swK < s.tab.length

/-- What `LeftAlone` reads, and what is left of a sweep; the drainer writes none of it. -/
structure Surroundings where
  powered : Bool
  faultCfg : Bool
  life : Life
  qAlloc : Bool
  hostHeld : Option HeldOp
  agenda : List Turn
  swKind : SweepKind
  swK : Nat
  entries : Nat

def State.surroundings (s : State) : Surroundings :=
  ⟨s.powered, s.faultCfg, s.life, s.qAlloc, s.hostHeld, s.agenda, s.swKind, s.swK, s.tab.length⟩

theorem LeftAlone.of_surroundings_eq {s t : State} (h : LeftAlone s) (ht : t.surroundings = s.surroundings) :
    LeftAlone t := by
  obtain ⟨hr, hl, ha, hheld, hag, hk⟩ := h
  obtain ⟨ep, ef, el, ea, eh, eg, ek, ei, en⟩ := Surroundings.mk.inj ht
  exact ⟨by rwa [rxcReady, ep, ef], by rwa [el], by rwa [ea], by rwa [eh], by rwa [eg], by rwa [ek, ei, en]⟩

section

variable {s : State} (h : LeftAlone s)

include h

theorem LeftAlone.step_run {i : Instr} (hi : autonomous s = .run i s) : step s = exec i s :=
  step_of_fetch_run (by simp only [fetch, h.agenda, ownTurn_ready h.ready, hi])

theorem LeftAlone.step_drainer {i : Instr} (hi : drainerInstr s = some i) : step s = exec i s :=
  h.step_run (by simp only [autonomous, hi])

/-- A turn given to the drainer comes to the same as the default order, which lets it move first (log 2). -/
theorem LeftAlone.step_drainerTurn {i : Instr} (hi : drainerInstr s = some i) :
    step { s with agenda := [.drainer] } = step s := by
  have hsame : { s with agenda := [] } = s := by rw [← h.agenda]
  have hrun := step_drainer_run (s := { s with agenda := [.drainer] }) rfl h.ready hi
  rw [hrun, h.step_drainer hi]
  exact congrArg (exec i) hsame

theorem LeftAlone.step_sweep (hi : drainerInstr s = none) (hk : s.swKind ≠ .none) : step s = exec .sweepStep s :=
  h.step_run (by simp only [autonomous, hi, hostOwn, if_pos hk])

end

/-! ### The drainer's work -/

/-- What a drainer row leaves as it is, and that it adds no message and no status bit. -/
def DrainerStep (s t : State) : Prop :=
  t.surroundings = s.surroundings ∧ t.mac.rxq.length ≤ s.mac.rxq.length ∧
    (t.mac.isr = s.mac.isr ∨ t.mac.isr = 0)

theorem DrainerStep.trans {s t u : State} (h : DrainerStep s t) (h' : DrainerStep t u) : DrainerStep s u := by
  obtain ⟨hsur, hq, hst⟩ := h
  obtain ⟨hsur', hq', hst'⟩ := h'
  exact ⟨hsur'.trans hsur, hq'.trans hq, hst'.elim (fun he => he ▸ hst) .inr⟩

theorem takeInterrupt_drainerStep (s : State) : DrainerStep s (takeInterrupt s).2 := by
  rw [takeInterrupt_eq]
  exact ⟨rfl, le_rfl, .inr rfl⟩

theorem finishMessage_drainerStep (s : State) : DrainerStep s (finishMessage s) := by
  simp only [finishMessage, regWrite_cmd_rrb]
  obtain ⟨m, l, hq, h⟩ | ⟨-, h⟩ := release_cases s <;> rw [h]
  · exact ⟨rfl, by simp [hq], .inl rfl⟩
  · exact ⟨rfl, le_rfl, .inl rfl⟩

theorem admitMessage_drainerStep (w : RawMsg) (s : State) : DrainerStep s (admitMessage w s) := by
  obtain ⟨_, _, _, _, h⟩ := admitMessage_frame w s
  rw [h]
  exact ⟨by simp only [State.surroundings, admission_length], le_rfl, .inl rfl⟩

theorem exec_drainerStep {i : Instr} (hi : drainerRow i = true) (s : State) :
    Leads (DrainerStep s) (exec i s) := by
  cases i with
  | drEntryRx | drEntryErr | drEntryNone => exact leads_stepWhen (takeInterrupt_drainerStep s)
  | drCount | drExit => exact leads_stepWhen ⟨rfl, le_rfl, .inl rfl⟩
  | drMsgRtr | drMsgExt => exact leads_stepWhen (finishMessage_drainerStep s)
  | drMsgStd => exact leads_stepWhen ((admitMessage_drainerStep _ s).trans (finishMessage_drainerStep _))
  | _ => cases hi

/-- A status value has `RX`, or an error-class bit without it, or neither (R97). -/
theorem status_cases (v : Byte) :
    v &&& 0x01 = 0x01 ∨ (v &&& 0x01 = 0x00 ∧ v &&& 0xE4 ≠ 0) ∨ v &&& 0xE5 = 0x00 := by
  revert v
  decide

/-- DR.ENTRY clears the status, counts an error or not, and goes on to `Count` or stays idle (R243). -/
theorem exec_entry {s : State} (hr : rxcReady s = true) (he : entryReady s = true) :
    ∃ ph n, ph ≠ .drain ∧ exec (decodeIsr s.mac.isr) s = .next { s with
      cntIrq := s.cntIrq + 1, mac := { s.mac with isr := 0 }, drPushed := false
      drPhase := ph, cntErr := n } := by
  obtain ⟨hl, hidle, hisr⟩ := entryReady_iff.1 he
  obtain ⟨hrx, herr, hnone⟩ := entryEffect s hr hl hidle hisr
  obtain ⟨drx, derr, dnone, -⟩ := statusSelectsBranch s.mac.isr
  obtain h | ⟨h0, h⟩ | h := status_cases s.mac.isr
  · exact ⟨.count, s.cntErr, by decide, by rw [drx h, hrx h]⟩
  · exact ⟨.idle, s.cntErr + 1, by decide, by rw [derr ⟨h0, h⟩, herr h0 h, ← hidle]⟩
  · exact ⟨.idle, s.cntErr, by decide, by rw [dnone h, hnone h, ← hidle]⟩

/-! ### The bound on the work left -/

/-- A bound on the drainer steps the pending status brings: one entry, and the invocation it may begin. -/
def pendingWork (s : State) : Nat := if s.mac.isr = 0 then 0 else s.mac.rxq.length + 3

/-- The sweep steps left (R147). -/
def sweepWork (s : State) : Nat := if s.swKind = .none then 0 else s.tab.length - s.swK

/-- A bound on the steps before only the synchronisers have something to do. -/
def workLeft (s : State) : Nat := drainSteps s + pendingWork s + sweepWork s

theorem sweepWork_le (s : State) : sweepWork s ≤ s.tab.length - s.swK := by
  unfold sweepWork
  split
  · exact Nat.zero_le _
  · exact le_rfl

theorem workLeft_le_settleSteps (s : State) : workLeft s + 2 ≤ settleSteps s := by
  have hpending : pendingWork s ≤ s.mac.rxq.length + 3 := by
    unfold pendingWork
    split <;> omega
  have hsweep : sweepWork s ≤ s.tab.length - s.swK := sweepWork_le s
  simp only [workLeft, settleSteps]
  omega

/-- At its beginning an invocation has at most the messages in the FIFO to handle (R247). -/
theorem drainSteps_le {s : State} (h : s.drPhase ≠ .drain) : drainSteps s ≤ s.mac.rxq.length + 2 := by
  have hcount : (BitVec.ofNat 8 s.mac.rxq.length).toNat ≤ s.mac.rxq.length :=
    (BitVec.toNat_ofNat _ _).trans_le (Nat.mod_le _ _)
  unfold drainSteps
  split
  · omega
  · omega
  · exact absurd ‹_› h

section

variable {s t : State} (h : DrainerStep s t)

include h

theorem DrainerStep.sweepWork_eq : sweepWork t = sweepWork s := by
  obtain ⟨-, -, -, -, -, -, hk, hi, hn⟩ := Surroundings.mk.inj h.1
  simp only [sweepWork, hk, hi, hn]

theorem DrainerStep.pendingWork_le : pendingWork t ≤ pendingWork s := by
  obtain ⟨-, hq, hst⟩ := h
  by_cases h0 : t.mac.isr = 0
  · simp [pendingWork, h0]
  · have hsame : t.mac.isr = s.mac.isr := hst.resolve_right h0
    simp only [pendingWork, ← hsame, if_neg h0]
    omega

end

/-! ### One step does some of the work -/

/-- The step of one of the agents, and less work left after it. -/
def Progress (s : State) : Prop := ∃ t, step s = .next t ∧ LeftAlone t ∧ workLeft t < workLeft s

section

variable {s : State} (h : LeftAlone s)

include h

theorem LeftAlone.progress_of_drainerStep {t : State} (hstep : step s = .next t) (ht : DrainerStep s t)
    (hlt : drainSteps t + pendingWork t < drainSteps s + pendingWork s) : Progress s :=
  ⟨t, hstep, h.of_surroundings_eq ht.1, by simp only [workLeft, ht.sweepWork_eq]; omega⟩

/-- Inside an invocation the drainer moves on (R247). -/
theorem LeftAlone.progress_of_csHeld (hc : csHeld s = true) : Progress s := by
  obtain ⟨i, hi, hrow⟩ := drainerInstr_of_csHeld hc
  obtain ⟨t, hturn, hsteps⟩ :=
    invocationProgress { s with agenda := [.drainer] } [] h.ready h.queue rfl hc
  have hstep : step s = .next t := (h.step_drainerTurn hi).symm.trans hturn
  have ht : DrainerStep s t := exec_drainerStep hrow s t ((h.step_drainer hi).symm.trans hstep)
  have hpending : pendingWork t ≤ pendingWork s := ht.pendingWork_le
  refine h.progress_of_drainerStep hstep ht ?_
  change drainSteps t + 1 = drainSteps s at hsteps
  omega

/-- A pending status is cleared, and the invocation it may begin is within its bound (R243). -/
theorem LeftAlone.progress_of_entryReady (he : entryReady s = true) : Progress s := by
  obtain ⟨-, hidle, hisr⟩ := entryReady_iff.1 he
  have hi : drainerInstr s = some (decodeIsr s.mac.isr) := by simp only [drainerInstr, hidle, he, if_true]
  obtain ⟨ph, n, hph, hexec⟩ := exec_entry h.ready he
  refine h.progress_of_drainerStep ((h.step_drainer hi).trans hexec) ⟨rfl, le_rfl, .inr rfl⟩ ?_
  refine (Nat.add_le_add_right (drainSteps_le hph) _).trans_lt ?_
  simp only [pendingWork, if_true, if_neg hisr]
  omega

/-- A sweep writes its next entry (R147). -/
theorem LeftAlone.progress_of_sweep (hi : drainerInstr s = none) (hk : s.swKind ≠ .none) : Progress s := by
  have hlt : s.swK < s.tab.length := h.sweep hk
  have hexec := exec_sweepStep h.ready hk (List.getElem?_eq_getElem hlt)
  refine ⟨_, (h.step_sweep hi hk).trans hexec,
    ⟨h.ready, h.handler, h.queue, h.unheld, h.agenda, fun hgoes => ?_⟩, ?_⟩
  · have hnot : s.swK + 1 ≠ s.tab.length := fun hend => hgoes (if_pos hend)
    simp only [List.length_set]
    omega
  · refine Nat.add_lt_add_left ((sweepWork_le _).trans_lt ?_) _
    simp only [sweepWork, if_neg hk, List.length_set]
    omega

end

/-! ### Only the synchronisers are left -/

/-- The drainer has nothing to do and no sweep is in progress. -/
structure Rested (s : State) : Prop where
  idle : s.drPhase = .idle
  status : s.mac.isr = 0
  unswept : s.swKind = .none

theorem Rested.quiescent_of_fresh {s : State} (h : Rested s) (hw : s.wptrGs = gray s.wptr)
    (hr : s.rptrGs = gray s.rptr) : quiescent s = true := by
  obtain ⟨hidle, hst, hk⟩ := h
  simp [quiescent, hidle, hst, hk, hw, hr]

theorem LeftAlone.rested_or_progress {s : State} (h : LeftAlone s) : Rested s ∨ Progress s := by
  by_cases hc : csHeld s = true
  · exact .inr (h.progress_of_csHeld hc)
  have hidle : s.drPhase = .idle := by simpa [csHeld] using hc
  by_cases hst : s.mac.isr = 0
  · have hi : drainerInstr s = none := by simp [drainerInstr, hidle, entryReady, irq, hst]
    by_cases hk : s.swKind = .none
    · exact .inl ⟨hidle, hst, hk⟩
    · exact .inr (h.progress_of_sweep hi hk)
  · exact .inr (h.progress_of_entryReady (entryReady_iff.2 ⟨h.handler, hidle, hst⟩))

section

variable {s : State} (h : LeftAlone s) (hrest : Rested s)

include h hrest

theorem LeftAlone.autonomous_of_rested :
    autonomous s =
      if s.wptrGs ≠ gray s.wptr then .run .syncW s
      else if s.rptrGs ≠ gray s.rptr then .run .syncR s else .pass s := by
  obtain ⟨hidle, hst, hk⟩ := hrest
  simp [autonomous, drainerInstr, entryReady, irq, hostOwn, hidle, hst, hk, h.unheld, h.queue]

/-- A stale copy of the write pointer is renewed first (R175; log 2). -/
theorem LeftAlone.step_staleW (hw : s.wptrGs ≠ gray s.wptr) :
    step s = .next { s with wptrGs := gray s.wptr } :=
  (h.step_run (by rw [h.autonomous_of_rested hrest, if_pos hw])).trans (synchroniserEffect s h.ready h.queue).1

/-- Then a stale copy of the read pointer (R176; log 2). -/
theorem LeftAlone.step_staleR (hw : s.wptrGs = gray s.wptr) (hr : s.rptrGs ≠ gray s.rptr) :
    step s = .next { s with rptrGs := gray s.rptr } :=
  (h.step_run (by rw [h.autonomous_of_rested hrest, if_neg (not_not.2 hw), if_pos hr])).trans
    (synchroniserEffect s h.ready h.queue).2

end

/-! ### Settling -/

/-- Within `n` steps RXC becomes quiescent. -/
def SettlesWithin (n : Nat) (s : State) : Prop :=
  ∃ k t, k ≤ n ∧ Host.Core.run ⟨State, Fault, Refusal, step, State.reset⟩ k s = .next t ∧ quiescent t = true

theorem settlesWithin_of_quiescent {s : State} (n : Nat) (h : quiescent s = true) : SettlesWithin n s :=
  ⟨0, s, n.zero_le, rfl, h⟩

theorem SettlesWithin.mono {m n : Nat} {s : State} (h : SettlesWithin m s) (hmn : m ≤ n) :
    SettlesWithin n s := by
  obtain ⟨k, t, hk, hrun, hq⟩ := h
  exact ⟨k, t, hk.trans hmn, hrun, hq⟩

theorem SettlesWithin.of_step {n : Nat} {s t : State} (hstep : step s = .next t) (h : SettlesWithin n t) :
    SettlesWithin (n + 1) s := by
  obtain ⟨k, u, hk, hrun, hq⟩ := h
  refine ⟨k + 1, u, Nat.succ_le_succ hk, ?_, hq⟩
  simp only [Host.Core.run, hstep]
  exact hrun

theorem LeftAlone.settlesWithin_of_freshW {s : State} (h : LeftAlone s) (hrest : Rested s)
    (hw : s.wptrGs = gray s.wptr) : SettlesWithin 1 s := by
  by_cases hr : s.rptrGs = gray s.rptr
  · exact settlesWithin_of_quiescent 1 (hrest.quiescent_of_fresh hw hr)
  · have hrest' : Rested { s with rptrGs := gray s.rptr } := ⟨hrest.idle, hrest.status, hrest.unswept⟩
    exact .of_step (h.step_staleR hrest hw hr) (settlesWithin_of_quiescent 0 (hrest'.quiescent_of_fresh hw rfl))

theorem LeftAlone.settlesWithin_of_rested {s : State} (h : LeftAlone s) (hrest : Rested s) :
    SettlesWithin 2 s := by
  by_cases hw : s.wptrGs = gray s.wptr
  · exact (h.settlesWithin_of_freshW hrest hw).mono one_le_two
  · have halone : LeftAlone { s with wptrGs := gray s.wptr } := h.of_surroundings_eq rfl
    have hrest' : Rested { s with wptrGs := gray s.wptr } := ⟨hrest.idle, hrest.status, hrest.unswept⟩
    exact .of_step (h.step_staleW hrest hw) (halone.settlesWithin_of_freshW hrest' rfl)

/-- The drainer and the sweep use the work up, and the synchronisers take two steps more. -/
theorem LeftAlone.settlesWithin {s : State} (h : LeftAlone s) : SettlesWithin (workLeft s + 2) s := by
  obtain hrest | ⟨t, hstep, halone, hlt⟩ := h.rested_or_progress
  · exact (h.settlesWithin_of_rested hrest).mono (Nat.le_add_left _ _)
  · exact (SettlesWithin.of_step hstep halone.settlesWithin).mono (Nat.add_lt_add_right hlt 2)
termination_by workLeft s

/-- Settles O60: the invariants leave RXC with work of its own that every step lessens, and `settleSteps` bounds it. -/
theorem settlesToQuiescence : Obligations.SettlesToQuiescence := by
  intro s hr _ _ hlife _ hsweep hl hheld hag
  obtain ⟨ha, -⟩ := hlife.installed hl
  have halone : LeftAlone s := ⟨hr, hl, ha, hheld, hag, hsweep.1⟩
  exact halone.settlesWithin.mono (workLeft_le_settleSteps s)

end Sys2Proof.Machine
end

section
/-!
SUPPORT. The turn of a host operation while the host is free. What the host does while it is busy is
`hostFinishesFirst`.
-/

namespace Sys2Proof.Machine

theorem step_of_fetch_reject {s : State} {e : DecodeError} (h : fetch s = .reject e) :
    step s = .refused (.undecodable e) := by
  simp only [step, h]

/-- A free host stops by name on bytes that encode no host operation (R207; log 4). -/
theorem step_host_reject {s : State} {bytes : List Byte} {l : List Turn} {e : DecodeError}
    (h : s.agenda = .host bytes :: l) (hb : hostBusy s = false) (hd : decode .hostop bytes = .reject e) :
    step s = .refused (.undecodable e) :=
  step_of_fetch_reject (by simp [fetch_host h, hostTurn, hb, hd])

/-- Settles O7: the decoder answers with an operation, which runs, or with an error, which names the stop. -/
theorem stepRunsHostOperation : Obligations.StepRunsHostOperation := fun _ _ _ h hb =>
  ⟨fun _ hd => step_host_free h hb hd, fun _ hd => step_host_reject h hb hd⟩

end Sys2Proof.Machine
end
